-- ==== Sys2Proof/Word.lean ====
section
/-! DEFINITION. The word types of the Manchester codec core (00_scope.md R10). A bit is a `Bool`: "a
Boolean true is the bit 1". Values whose width is a parameter (cursors, counters) are bounded naturals,
as 10_state.md allows; the bound is part of what a reachable state satisfies (Machine/Ops.lean). -/

namespace Sys2Proof

/-- A byte of a frame buffer (20_memory.md R60, R61). -/
abbrev Byte := BitVec 8

/-- The width of the sync pattern and of the decoder's shift register (10_state.md R34). -/
abbrev SyncWord := BitVec 16

/-- An operation word (30_encoding.md R87, R91). -/
abbrev OpWord := BitVec 32

end Sys2Proof
end

