-- ==== Sys2Proof/Config.lean ====
section
/-! DEFINITION. The build-time parameters of the block (00_scope.md R6), as plain data. The constraints
that a parameter set must meet are `Machine.paramsValid` in Machine/Ops.lean. There is no free value:
the spec leaves no point open (92_eei_decisions.md, last section). -/

namespace Sys2Proof

/-- The parameter `ORDER`: the order in which the bits of a byte go on the wire (20_memory.md R64). -/
inductive BitOrder where
  | msbFirst
  | lsbFirst
  deriving DecidableEq, Repr

/-- The parameters of 00_scope.md R6. `VCLK0` is no parameter: it is fixed (D11), see `Config.vclk0`;
the payload capacity `P` is derived, see `Params.payloadCap`. -/
structure Params where
  /-- `N`, TICKS_PER_BIT. -/
  ticksPerBit : Nat
  /-- `T`, SYNC_THRESHOLD. -/
  syncThreshold : Nat
  /-- `W`, WATCHDOG_TICKS. -/
  watchdogTicks : Nat
  /-- `C`, FRAME_CAP. -/
  frameCap : Nat
  /-- `SYNC`, in wire order: bit 15 is sent first. -/
  sync : SyncWord
  /-- `ORDER`. -/
  order : BitOrder
  /-- `CNT_W`, the width of the elapsed-tick counter. -/
  cntW : Nat
  /-- `LEN_W`, the width of the START_ENCODE length operand. -/
  lenW : Nat
  deriving DecidableEq, Repr

/-- `P = C - 2` (00_scope.md R6). -/
def Params.payloadCap (p : Params) : Nat := p.frameCap - 2

/-- The reference values of 00_scope.md R6, with which the test vectors of the spec are computed. -/
def Config.reference : Params where
  ticksPerBit := 10
  syncThreshold := 8
  watchdogTicks := 30
  frameCap := 8
  sync := 0xAA55#16
  order := .msbFirst
  cntW := 16
  lenW := 16

/-- `VCLK0`, the virtual clock after START_ENCODE: fixed at 1 (00_scope.md R6, D11). -/
def Config.vclk0 : Bool := true

end Sys2Proof
end

