-- ==== Sys2Proof/Syntax.lean ====
section
/-! DEFINITION. The operations of the block: one constructor per row of spec/opcode_table.json
(42_events_and_ports.md R160, 30_encoding.md R89). -/

namespace Sys2Proof

/-- The direction operand of EDGE: the line went 0 to 1, or 1 to 0 (41_decoder.md R125). -/
inductive Dir where
  | falling
  | rising
  deriving DecidableEq, Repr

/-- The six operations. Levels are bits (R121). START_ENCODE carries its length and, beside the word,
its payload (40_encoder.md R101); a payload that has not exactly `P` bytes is refused (R90). -/
inductive Instr where
  /-- NOP, 42_events_and_ports.md R162. -/
  | nop
  /-- TICK, 42_events_and_ports.md R161. -/
  | tick
  /-- RX_SAMPLE, 41_decoder.md R121. -/
  | rxSample (level : Bool)
  /-- EDGE, 41_decoder.md R125. -/
  | edge (dir : Dir)
  /-- RESET_DECODER, 41_decoder.md R143. -/
  | resetDecoder
  /-- START_ENCODE, 40_encoder.md R102. -/
  | startEncode (len : Nat) (payload : List Byte)
  deriving DecidableEq, Repr

end Sys2Proof
end

