-- ==== Sys2Proof/WellFormed.lean ====
section
/-! DEFINITION. Which operations an operation word with its side operand can carry. -/

namespace Sys2Proof

/-- START_ENCODE's length fits the word's 16-bit `len` field (30_encoding.md R87, R92) and its side
operand has exactly `P` bytes (R87, R90). Every other operation is well-formed as it stands. -/
def Instr.wellFormed (i : Instr) (payloadCap : Nat) : Bool :=
  match i with
  | .nop => true
  | .tick => true
  | .rxSample _ => true
  | .edge _ => true
  | .resetDecoder => true
  | .startEncode len payload => decide (len < 2 ^ 16) && decide (payload.length = payloadCap)

end Sys2Proof
end

