-- ==== Sys2Proof/Decode.lean ====
section
/-! DEFINITION. Operation words: decoding, total and rejecting by name, and encoding
(30_encoding.md R87 to R91). -/

namespace Sys2Proof

/-- Why a word is no operation (30_encoding.md R90). Every one of these is refused by the step as
`reservedWord` (42_events_and_ports.md R163). -/
inductive DecodeError where
  /-- `op` is 0x6 to 0xF. -/
  | reservedOp
  /-- The `rsv` field is not 0. -/
  | reservedField
  /-- `a` is 1 for an operation other than RX_SAMPLE and EDGE. -/
  | strayArgument
  /-- `len` is not 0 for an operation other than START_ENCODE. -/
  | strayLength
  /-- START_ENCODE's side operand has not exactly `P` bytes. -/
  | sideOperandSize
  deriving DecidableEq, Repr

/-- The `op` field, bits [3:0] (30_encoding.md R87). -/
def opField (w : OpWord) : BitVec 4 := w.extractLsb' 0 4

/-- The `a` bit, bit [4] (30_encoding.md R87). -/
def argField (w : OpWord) : Bool := w.getLsbD 4

/-- The `rsv` field, bits [15:5] (30_encoding.md R87). -/
def rsvField (w : OpWord) : BitVec 11 := w.extractLsb' 5 11

/-- The `len` field, bits [31:16] (30_encoding.md R87). -/
def lenField (w : OpWord) : BitVec 16 := w.extractLsb' 16 16

/-- The direction the `a` bit stands for: 1 = Rising, 0 = Falling (30_encoding.md R88). -/
def dirOfBit (b : Bool) : Dir := if b then .rising else .falling

/-- The `a` bit of a direction (30_encoding.md R87). -/
def bitOfDir (d : Dir) : Bool :=
  match d with
  | .rising => true
  | .falling => false

/-- The checks of 30_encoding.md R90 on the fields an operation does not use. -/
def unusedFieldsClear (w : OpWord) (usesArg usesLen : Bool) : Except DecodeError Unit :=
  if rsvField w ≠ 0 then .error .reservedField
  else if usesArg = false ∧ argField w = true then .error .strayArgument
  else if usesLen = false ∧ lenField w ≠ 0 then .error .strayLength
  else .ok ()

/-- The operation of a word and the side operand passed beside it (30_encoding.md R88 to R90).
`payloadCap` is `P`. The length is the word's field, zero-extended, not clamped here (R88). An
operation other than START_ENCODE does not look at the side operand (log 6). -/
def decode (payloadCap : Nat) (w : OpWord) (side : List Byte) : Except DecodeError Instr :=
  match (opField w).toNat with
  | 0 => (unusedFieldsClear w false false).map fun _ => .nop
  | 1 => (unusedFieldsClear w false false).map fun _ => .tick
  | 2 => (unusedFieldsClear w true false).map fun _ => .rxSample (argField w)
  | 3 => (unusedFieldsClear w true false).map fun _ => .edge (dirOfBit (argField w))
  | 4 => (unusedFieldsClear w false false).map fun _ => .resetDecoder
  | 5 =>
    match unusedFieldsClear w false true with
    | .error e => .error e
    | .ok _ =>
      if side.length = payloadCap then .ok (.startEncode (lenField w).toNat side)
      else .error .sideOperandSize
  | _ => .error .reservedOp

/-- A word of the four fields (30_encoding.md R87), with `rsv` 0. -/
def packWord (op : BitVec 4) (arg : Bool) (len : BitVec 16) : OpWord :=
  len ++ (0#11 ++ (BitVec.ofBool arg ++ op))

/-- The word of an operation (30_encoding.md R87, R89). -/
def encodeWord (i : Instr) : OpWord :=
  match i with
  | .nop => packWord 0x0#4 false 0#16
  | .tick => packWord 0x1#4 false 0#16
  | .rxSample level => packWord 0x2#4 level 0#16
  | .edge d => packWord 0x3#4 (bitOfDir d) 0#16
  | .resetDecoder => packWord 0x4#4 false 0#16
  | .startEncode len _ => packWord 0x5#4 false (BitVec.ofNat 16 len)

/-- The side operand passed beside the word (30_encoding.md R87): START_ENCODE's payload. -/
def encodeSide (i : Instr) : List Byte :=
  match i with
  | .nop => []
  | .tick => []
  | .rxSample _ => []
  | .edge _ => []
  | .resetDecoder => []
  | .startEncode _ payload => payload

/-- The side operand of zeros, `P` bytes. -/
def zeroSide (payloadCap : Nat) : List Byte := List.replicate payloadCap 0#8

/-- What the decoder reads from an operation whose bits are `w`, numbered as spec/opcode_table.json
numbers them. Every operation word has 32 bits (30_encoding.md R91). The side operand, which the table
gives no bits, is the reference configuration's `P` bytes of zeros (log 14). -/
def decodeTableWord (nbits w : Nat) : Option Instr :=
  if nbits ≤ 32 ∧ w < 2 ^ nbits then
    match decode Config.reference.payloadCap (BitVec.ofNat 32 w)
        (zeroSide Config.reference.payloadCap) with
    | .ok i => some i
    | .error _ => none
  else none

end Sys2Proof
end

