-- ==== Sys2Proof/Machine/State.lean ====
section
/-! DEFINITION. The state of the block as plain data: every element of 10_state.md R20, what the outside
presents to it, and the machine after power-on reset (10_state.md R45). Each element has one home;
it is grouped as R20 groups it. -/

namespace Sys2Proof.Machine

/-- The decode state (10_state.md R33, 30_encoding.md R80). -/
inductive DecodeState where
  | notSynchronized
  | bitSynchronized
  | dataSynchronized
  | dataReady
  deriving DecidableEq, Repr

/-- The previous edge direction (10_state.md R36, 30_encoding.md R81). The code 0b11 that R81 says no
rule writes has no value here. -/
inductive Edge where
  | none
  | rising
  | falling
  deriving DecidableEq, Repr

/-- A frame buffer: index and byte pairs, indices strictly rising, no byte equal to what an unlisted
index reads as, `0x00` (20_memory.md R60, R61, R72; log 12). `Memory.wf` in Machine/Ops.lean says it. -/
abbrev Memory := List Host.Cell

/-- The encode session and its buffer (10_state.md R20 (1), R22 to R28; 20_memory.md R60). -/
@[ext] structure EncSession where
  /-- `EncBuf` (20_memory.md R60). -/
  buf : Memory
  /-- `enc_bit` (10_state.md R22). -/
  bit : BitVec 3
  /-- `enc_byte` (10_state.md R23). -/
  byte : Nat
  /-- `enc_total` (10_state.md R24). -/
  total : Nat
  /-- `enc_active` (10_state.md R25). -/
  active : Bool
  /-- `enc_phase` (10_state.md R26). -/
  phase : Nat
  /-- `enc_vclk` (10_state.md R27). -/
  vclk : Bool
  /-- `tx` (10_state.md R28). -/
  tx : Bool
  deriving DecidableEq, Repr

/-- The decode session, its buffer and the decode-only state (10_state.md R20 (2), (3), R29 to R36;
20_memory.md R61). -/
@[ext] structure DecSession where
  /-- `DecBuf` (20_memory.md R61). -/
  buf : Memory
  /-- `dec_bit` (10_state.md R29). -/
  bit : BitVec 3
  /-- `dec_byte` (10_state.md R30). -/
  byte : Nat
  /-- `dec_total` (10_state.md R31). -/
  total : Nat
  /-- `dec_active` (10_state.md R32). -/
  active : Bool
  /-- `dec_state` (10_state.md R33). -/
  state : DecodeState
  /-- `dec_shift` (10_state.md R34). -/
  shift : SyncWord
  /-- `dec_elapsed` (10_state.md R35). -/
  elapsed : Nat
  /-- `dec_prev_edge` (10_state.md R36). -/
  prevEdge : Edge
  deriving DecidableEq, Repr

/-- The edge detector (10_state.md R20 (4), R37, R38). -/
@[ext] structure EdgeDetector where
  /-- `rx_prev` (10_state.md R37). -/
  rxPrev : Bool
  /-- `rx_seen` (10_state.md R38). -/
  rxSeen : Bool
  deriving DecidableEq, Repr

/-- The inputs of the clocked block in one clock cycle (42_events_and_ports.md R165). `startPayload` is
the `8*P`-bit port as a number: byte `i` is its bits [8*i+7 : 8*i]. -/
structure PortsIn where
  rst : Bool
  tick : Bool
  rx : Bool
  start : Bool
  startLen : Nat
  startPayload : Nat
  resetDecoder : Bool
  rdAddr : Nat
  deriving DecidableEq, Repr

/-- What the outside presents to the block, in its order (00_scope.md R5; log 2). -/
inductive Input where
  /-- One operation word with its side operand (30_encoding.md R87). -/
  | word (w : OpWord) (side : List Byte)
  /-- One clock cycle (42_events_and_ports.md R166). -/
  | cycle (ports : PortsIn)
  /-- The second half of the pseudo-operation `lbtick`: `rx <s.tx>` (30_encoding.md R93). -/
  | loopRx
  /-- One clock cycle with `tx` wired to `rx` outside the block (42_events_and_ports.md R174). -/
  | loopCycle (ports : PortsIn)
  deriving DecidableEq, Repr

/-- The state (10_state.md R20). `params`, `outReady` and `inputs` are the model's own fields: the
step's arguments and output of 00_scope.md R12 (log 1, 2, 3). -/
structure State where
  /-- The build-time parameters; no operation writes them (10_state.md R41). -/
  params : Params
  enc : EncSession
  dec : DecSession
  det : EdgeDetector
  /-- `frame_ready_q` (10_state.md R39). -/
  frameReadyQ : Bool
  /-- `out.ready` of the operation or clock cycle performed last (00_scope.md R12). -/
  outReady : Bool
  /-- What the outside presents next, first entry first. -/
  inputs : List Input
  deriving DecidableEq, Repr

/-- The reasons to stop with a fault: none. "No operation of 42_events_and_ports.md rule R160 can fail"
(60_exceptions.md R180); there are no traps (R186). Nothing raises one: safe. -/
inductive Fault where
  deriving DecidableEq, Repr

/-- The reasons for which the step gives no meaning (60_exceptions.md R181). -/
inductive Refusal where
  /-- Raised by an arm of `exec` that has no meaning; no arm raises it. Safe. -/
  | notModelled (mnemonic : String)
  /-- Raised by the step on a word that 30_encoding.md R90 rejects, and by START_ENCODE on a payload
  that has not exactly `P` bytes (42_events_and_ports.md R163). Safe: the spec refuses it too. -/
  | reservedWord
  /-- Raised by every step when the parameters break a constraint of 00_scope.md R6
  (42_events_and_ports.md R164). Safe: the spec refuses it too. -/
  | badConfig
  /-- Raised by every operation in a state that holds a value no rule writes (60_exceptions.md R181 (3),
  93_implementation_defined.md). Safe: the spec refuses it too, and no run from reset reaches one. -/
  | unreachableValue
  deriving DecidableEq, Repr

/-- The outcome of a step. -/
abbrev Outcome := Host.Outcome State Fault Refusal

/-- The encode session after power-on reset (10_state.md R45). -/
def EncSession.powerOn : EncSession where
  buf := []
  bit := 0#3
  byte := 0
  total := 0
  active := false
  phase := 0
  vclk := Config.vclk0
  tx := false

/-- The decode session after power-on reset (10_state.md R45); `c` is `C`. -/
def DecSession.powerOn (c : Nat) : DecSession where
  buf := []
  bit := 0#3
  byte := 0
  total := c
  active := false
  state := .notSynchronized
  shift := 0#16
  elapsed := 0
  prevEdge := .none

/-- The edge detector after power-on reset (10_state.md R45). -/
def EdgeDetector.powerOn : EdgeDetector where
  rxPrev := false
  rxSeen := false

/-- The block built with parameters `p`, after power-on reset (10_state.md R45,
70_reset_and_hazards.md R200), with nothing presented to it. -/
def State.powerOn (p : Params) : State where
  params := p
  enc := EncSession.powerOn
  dec := DecSession.powerOn p.frameCap
  det := EdgeDetector.powerOn
  frameReadyQ := false
  outReady := false
  inputs := []

/-- The machine right after reset, built with the reference parameters (00_scope.md R6; log 1). -/
def State.reset : State := State.powerOn Config.reference

end Sys2Proof.Machine
end

