-- ==== Sys2Proof/Machine/Operands.lean ====
section
/-! DEFINITION. Bits, bytes and codes: the bit order within a byte, the sync field's two bytes, edge
values, and the codes of the two enumerations (20_memory.md R64 to R66, 30_encoding.md R80 to R82,
41_decoder.md R123). -/

namespace Sys2Proof.Machine

/-- Where cursor position `k` of a byte stands in it (20_memory.md R64). -/
def bitIndex (o : BitOrder) (k : BitVec 3) : Nat :=
  match o with
  | .msbFirst => 7 - k.toNat
  | .lsbFirst => k.toNat

/-- `wirebit(byte, k)` (20_memory.md R64). -/
def wirebit (o : BitOrder) (b : Byte) (k : BitVec 3) : Bool := b.getLsbD (bitIndex o k)

/-- `setbit(byte, k)` (20_memory.md R64). -/
def setbit (o : BitOrder) (b : Byte) (k : BitVec 3) : Byte := b ||| (1#8 <<< bitIndex o k)

/-- `bitreverse8(v)`: bit `i` of the result is bit `7 - i` of `v` (20_memory.md R65). -/
def bitreverse8 (v : Byte) : Byte := v.reverse

/-- `wire_to_byte(v)`: the byte that the encoder would send as the wire sequence `v`, bit 7 first
(20_memory.md R65). -/
def wireToByte (o : BitOrder) (v : Byte) : Byte :=
  match o with
  | .msbFirst => v
  | .lsbFirst => bitreverse8 v

/-- `SyncByte0` (20_memory.md R66). -/
def syncByte0 (p : Params) : Byte := wireToByte p.order (p.sync.extractLsb' 8 8)

/-- `SyncByte1` (20_memory.md R66). -/
def syncByte1 (p : Params) : Byte := wireToByte p.order (p.sync.extractLsb' 0 8)

/-- `bitval` (41_decoder.md R123). -/
def bitval (d : Dir) : Bool :=
  match d with
  | .rising => true
  | .falling => false

/-- The direction of a change of the sampled level to `level` (41_decoder.md R121). -/
def dirOfLevel (level : Bool) : Dir := if level then .rising else .falling

/-- The value that `dec_prev_edge` takes from an edge (41_decoder.md R139). -/
def edgeOfDir (d : Dir) : Edge :=
  match d with
  | .rising => .rising
  | .falling => .falling

/-- `{shift[14:0], bv}`: bit 15 is shifted out and lost (41_decoder.md R131). -/
def shiftIn (shift : SyncWord) (bv : Bool) : SyncWord :=
  shift.extractLsb' 0 15 ++ BitVec.ofBool bv

/-- `zext_16({~bv, bv})`, the bit-lock seed (41_decoder.md R128). -/
def lockSeed (bv : Bool) : SyncWord := (BitVec.ofBool (!bv) ++ BitVec.ofBool bv).setWidth 16

/-- The 2-bit code of a decode state (30_encoding.md R80). -/
def decodeStateCode (d : DecodeState) : BitVec 2 :=
  match d with
  | .notSynchronized => 0b00#2
  | .bitSynchronized => 0b01#2
  | .dataSynchronized => 0b10#2
  | .dataReady => 0b11#2

/-- The decode state of a 2-bit code: all four are legal (30_encoding.md R80). -/
def decodeStateOfCode (c : BitVec 2) : DecodeState :=
  match c.toNat with
  | 0 => .notSynchronized
  | 1 => .bitSynchronized
  | 2 => .dataSynchronized
  | _ => .dataReady

/-- The 2-bit code of an edge (30_encoding.md R81). -/
def edgeCode (e : Edge) : BitVec 2 :=
  match e with
  | .none => 0b00#2
  | .rising => 0b01#2
  | .falling => 0b10#2

/-- The edge of a 2-bit code; 0b11 is not used and is refused (30_encoding.md R81,
60_exceptions.md R181 (3)). -/
def edgeOfCode (c : BitVec 2) : Except Refusal Edge :=
  match c.toNat with
  | 0 => .ok .none
  | 1 => .ok .rising
  | 2 => .ok .falling
  | _ => .error .unreachableValue

/-- The bit for `ORDER` in a configuration record (30_encoding.md R82). -/
def orderBit (o : BitOrder) : Bool :=
  match o with
  | .msbFirst => false
  | .lsbFirst => true

end Sys2Proof.Machine
end

