-- ==== Sys2Proof/Machine/Flags.lean ====
section
/-! DEFINITION. The conditions and counter computations the operations test, and the flags they write.
The block has no condition codes; its four flags (10_state.md R40) are written only as an operation's
own rule lists. -/

namespace Sys2Proof.Machine

/-- `sat_inc(x)` (00_scope.md R11): the elapsed counter does not pass `2^CNT_W - 1`. -/
def satInc (p : Params) (x : Nat) : Nat := if x < 2 ^ p.cntW - 1 then x + 1 else x

/-- The tick that brings the phase to `ph` is the mid-bit tick (40_encoder.md R104). -/
def isMidBit (p : Params) (ph : Nat) : Bool := ph == p.ticksPerBit / 2

/-- The tick that brings the phase to `ph` is the end-of-bit tick (40_encoder.md R104). -/
def isEndOfBit (p : Params) (ph : Nat) : Bool := ph == p.ticksPerBit

/-- The edge that comes now qualifies: `dec_elapsed >= T` (41_decoder.md R124). -/
def qualifies (s : State) : Bool := decide (s.params.syncThreshold ≤ s.dec.elapsed)

/-- The bit-lock test (41_decoder.md R127): an alternation, at least `T` ticks after the previous edge. -/
def locks (d : Dir) (s : State) : Bool :=
  s.dec.prevEdge != .none && edgeOfDir d != s.dec.prevEdge && qualifies s

/-- The idle watchdog's condition on the counter as DEC_TICK has just written it
(41_decoder.md R140, R141): "exceeds" is strict. -/
def watchdogExpired (s : State) : Bool :=
  s.dec.state == .dataSynchronized && decide (s.params.watchdogTicks < s.dec.elapsed)

end Sys2Proof.Machine
end

