-- ==== Sys2Proof/Machine/Ops.lean ====
section
/-! DEFINITION. The named operations over the buffers and the state that the six operations share: byte
access (20_memory.md), what a configuration and a reachable state satisfy (00_scope.md R6, 10_state.md
R43, R44), the guard that refuses the rest (60_exceptions.md R181), and the notification (R183). The
block takes no exception and returns from none (R186, R187), so there is no such operation here. -/

namespace Sys2Proof.Machine

/-! ## Buffers -/

/-- The byte that an unlisted index reads as: `0x00` (10_state.md R45, 20_memory.md R72). -/
def resetByte : Byte := 0#8

/-- `MemRead(buf, i)` (00_scope.md R11). -/
def Memory.read (m : Memory) (i : Nat) : Byte :=
  match m with
  | [] => resetByte
  | c :: rest => if c.1 = i then c.2 else Memory.read rest i

/-- Put a cell in front of the first cell of a higher index. -/
def Memory.insertCell (m : Memory) (i : Nat) (v : Byte) : Memory :=
  match m with
  | [] => [(i, v)]
  | c :: rest => if i < c.1 then (i, v) :: c :: rest else c :: Memory.insertCell rest i v

/-- `MemWrite(buf, i, v)` (00_scope.md R11). A byte equal to what an unlisted index reads as is not
listed. -/
def Memory.write (m : Memory) (i : Nat) (v : Byte) : Memory :=
  let others : Memory := m.filter fun c => c.1 != i
  if v = resetByte then others else Memory.insertCell others i v

/-- Write consecutive bytes, the first at index `i`. -/
def Memory.writeBytes (m : Memory) (i : Nat) (bytes : List Byte) : Memory :=
  match bytes with
  | [] => m
  | b :: rest => (m.write i b).writeBytes (i + 1) rest

/-- The canonical form: indices strictly rising, and no byte listed that equals an unlisted one's. -/
abbrev Memory.wf (m : Memory) : Prop :=
  m.Pairwise (fun a b => a.1 < b.1) ∧ ∀ c ∈ m, c.2 ≠ resetByte

/-- Only indices 0 to `c - 1` exist (20_memory.md R62). -/
abbrev Memory.below (m : Memory) (c : Nat) : Prop := ∀ x ∈ m, x.1 < c

/-! ## What a configuration and a reachable state satisfy -/

/-- The constraints of 00_scope.md R6 (and R7, R8, R9, which explain them). `VCLK0` needs none: it is
fixed. -/
abbrev paramsValid (p : Params) : Prop :=
  (p.ticksPerBit % 2 = 0 ∧ 2 ≤ p.ticksPerBit) ∧
  (p.ticksPerBit / 2 < p.syncThreshold ∧ p.syncThreshold ≤ p.ticksPerBit) ∧
  (p.ticksPerBit ≤ p.watchdogTicks ∧ p.watchdogTicks < 2 ^ p.cntW - 1) ∧
  (3 ≤ p.frameCap ∧ p.frameCap ≤ 2 ^ p.lenW) ∧
  p.sync.getLsbD 15 ≠ p.sync.getLsbD 14 ∧
  1 ≤ p.lenW

/-- Every value is in the range its register has (10_state.md R23, R24, R26, R30, R31, R35). The 3-bit
cursors are in range by their type (R22, R29). -/
abbrev rangesOk (s : State) : Prop :=
  s.enc.byte ≤ s.params.frameCap ∧
  s.enc.total ≤ s.params.frameCap ∧
  s.enc.phase < s.params.ticksPerBit ∧
  s.dec.byte ≤ s.params.frameCap ∧
  s.dec.total = s.params.frameCap ∧
  s.dec.elapsed < 2 ^ s.params.cntW

/-- The session invariants of 10_state.md R43. -/
abbrev sessionsOk (s : State) : Prop :=
  (s.enc.active = true → s.enc.byte < s.enc.total) ∧
  (s.dec.active = true → s.dec.byte < s.dec.total)

/-- The decoder invariants of 10_state.md R44, (a) to (f). -/
abbrev decoderOk (s : State) : Prop :=
  (s.dec.state = .dataReady → s.dec.active = false) ∧
  (s.dec.state = .bitSynchronized ∨ s.dec.state = .dataSynchronized → s.dec.active = true) ∧
  (s.dec.state = .notSynchronized ∧ s.dec.active = true → s.dec.prevEdge ≠ .none) ∧
  (s.dec.state = .notSynchronized ∧ s.dec.active = false →
    s.dec.prevEdge = .none ∧ s.dec.elapsed = 0) ∧
  (s.dec.state = .dataSynchronized → 2 ≤ s.dec.byte ∧ s.dec.byte < s.params.frameCap) ∧
  (s.dec.state = .dataSynchronized → s.dec.elapsed ≤ s.params.watchdogTicks)

/-- The state holds only values that some rule writes: what 60_exceptions.md R181 (3) and
93_implementation_defined.md require of a state for an operation to have a meaning (log 9). -/
abbrev valuesOk (s : State) : Prop := rangesOk s ∧ sessionsOk s ∧ decoderOk s

/-! ## Performing an operation -/

/-- The state in which an operation starts: it has not called `notify()` (00_scope.md R12). -/
def beginOp (s : State) : State := { s with outReady := false }

/-- `notify()`: this operation returns `out.ready = 1`; nothing else changes (60_exceptions.md R183). -/
def notify (s : State) : State := { s with outReady := true }

/-- Perform the effect `f` of an operation, unless the configuration or the state has no meaning: then
refuse it by the spec's name, with no change of state (60_exceptions.md R181). -/
def perform (f : State → State) (s : State) : Outcome :=
  if ¬ paramsValid s.params then .refused .badConfig
  else if ¬ valuesOk s then .refused .unreachableValue
  else .next (f (beginOp s))

/-- `complete()`: the session ends, the edge history is reset, the frame is ready, and the host is
notified (41_decoder.md R138). Shared by the edge path (R135) and the watchdog path (R141). -/
def complete (s : State) : State :=
  notify { s with dec.active := false, dec.prevEdge := .none, dec.state := .dataReady }

end Sys2Proof.Machine
end

