-- ==== Sys2Proof/Machine/Decoder.lean ====
section
/-! DEFINITION. The decoder's operations: RX_SAMPLE, EDGE, DEC_TICK and RESET_DECODER (41_decoder.md). -/

namespace Sys2Proof.Machine

/-! ## EDGE -/

/-- `dec_prev_edge <- d` (41_decoder.md R139). -/
def recordEdge (d : Dir) (s : State) : State := { s with dec.prevEdge := edgeOfDir d }

/-- Arming: the first edge seen while idle (41_decoder.md R126). -/
def arm (s : State) : State := { s with dec.active := true, dec.elapsed := 0 }

/-- Bit lock: seed the shift register with the lock edge's bit and its complement
(41_decoder.md R127, R128). -/
def lock (d : Dir) (s : State) : State :=
  { s with dec.shift := lockSeed (bitval d), dec.state := .bitSynchronized }

/-- `dec_elapsed <- 0`: the counter restarts (10_state.md R35). -/
def restartCounter (s : State) : State := { s with dec.elapsed := 0 }

/-- EDGE in NotSynchronized (41_decoder.md R126, R127): every edge restarts the counter (R129). -/
def edgeNotSynchronized (d : Dir) (s : State) : State :=
  if s.dec.active then
    if locks d s then recordEdge d (restartCounter (lock d s))
    else recordEdge d (restartCounter s)
  else recordEdge d (arm s)

/-- The matched 16 bits become bytes 0 and 1, and the payload bytes 2 to `C-1` are cleared
(41_decoder.md R132). -/
def storeMatch (p : Params) (shift : SyncWord) (m : Memory) : Memory :=
  ((m.write 0 (wireToByte p.order (shift.extractLsb' 8 8))).write 1
    (wireToByte p.order (shift.extractLsb' 0 8))).writeBytes 2 (List.replicate (p.frameCap - 2) 0x00#8)

/-- The sync match (41_decoder.md R132): the cursors stand behind the sync field. -/
def syncMatch (s : State) : State :=
  { s with
    dec.buf := storeMatch s.params s.dec.shift s.dec.buf
    dec.byte := 2
    dec.bit := 0#3
    dec.total := s.params.frameCap
    dec.state := .dataSynchronized }

/-- A qualifying edge in BitSynchronized shifts its bit in and restarts the counter
(41_decoder.md R131). -/
def shiftBit (d : Dir) (s : State) : State :=
  { s with dec.shift := shiftIn s.dec.shift (bitval d), dec.elapsed := 0 }

/-- The register's value is compared with all 16 bits of `SYNC` (41_decoder.md R131). -/
def matchIfSync (s : State) : State :=
  if s.dec.shift = s.params.sync then syncMatch s else s

/-- EDGE in BitSynchronized (41_decoder.md R131); an edge that does not qualify is noise (R124). -/
def edgeBitSynchronized (d : Dir) (s : State) : State :=
  if qualifies s then recordEdge d (matchIfSync (shiftBit d s)) else recordEdge d s

/-- Extraction sets the bit at the cursor for a rising edge and writes nothing for a falling one
(41_decoder.md R134). -/
def extractBit (d : Dir) (s : State) : State :=
  if bitval d then
    { s with
      dec.buf := s.dec.buf.write s.dec.byte
        (setbit s.params.order (s.dec.buf.read s.dec.byte) s.dec.bit) }
  else s

/-- The bit cursor advances, on wrap the byte cursor (41_decoder.md R134). -/
def advanceDecCursor (s : State) : State :=
  if s.dec.bit = 7#3 then { s with dec.bit := 0#3, dec.byte := s.dec.byte + 1 }
  else { s with dec.bit := s.dec.bit + 1#3 }

/-- Completion by edge when the byte cursor reaches the total (41_decoder.md R134, R135). -/
def completeIfFull (s : State) : State :=
  if s.dec.byte = s.dec.total then complete s else s

/-- EDGE in DataSynchronized (41_decoder.md R134). The edge is recorded before a possible `complete()`,
which then writes `None` (R139). -/
def edgeDataSynchronized (d : Dir) (s : State) : State :=
  if qualifies s then
    completeIfFull (advanceDecCursor (restartCounter (extractBit d (recordEdge d s))))
  else recordEdge d s

/-- EDGE (41_decoder.md R125): by decode state; ignored in DataReady (R137). -/
def edge (d : Dir) (s : State) : State :=
  match s.dec.state with
  | .dataReady => s
  | .notSynchronized => edgeNotSynchronized d s
  | .bitSynchronized => edgeBitSynchronized d s
  | .dataSynchronized => edgeDataSynchronized d s

/-! ## RX_SAMPLE -/

/-- `rx_prev <- level` (41_decoder.md R121). -/
def recordLevel (level : Bool) (s : State) : State := { s with det.rxPrev := level }

/-- The first sample after power-on reset initialises the detector and makes no edge
(41_decoder.md R121, R122). -/
def initDetector (level : Bool) (s : State) : State :=
  { s with det.rxPrev := level, det.rxSeen := true }

/-- RX_SAMPLE (41_decoder.md R121): the first sample only initialises the detector; a change of the
sampled level performs EDGE within this operation. -/
def rxSample (level : Bool) (s : State) : State :=
  if s.det.rxSeen then
    if level ≠ s.det.rxPrev then edge (dirOfLevel level) (recordLevel level s) else s
  else initDetector level s

/-! ## DEC_TICK -/

/-- `dec_elapsed <- sat_inc(s.dec_elapsed)` (41_decoder.md R140). -/
def countTick (s : State) : State := { s with dec.elapsed := satInc s.params s.dec.elapsed }

/-- Completion by the watchdog (41_decoder.md R140, R141). -/
def completeIfExpired (s : State) : State := if watchdogExpired s then complete s else s

/-- DEC_TICK (41_decoder.md R140): count while active, and complete a frame in DataSynchronized whose
counter's new value exceeds the watchdog's limit (R141). -/
def decTick (s : State) : State :=
  if s.dec.active then completeIfExpired (countTick s) else s

/-! ## RESET_DECODER -/

/-- RESET_DECODER (41_decoder.md R143): the decoder's control state returns to idle; `DecBuf`, the edge
detector and the encoder keep their values. -/
def resetDecoder (s : State) : State :=
  { s with
    dec.state := .notSynchronized
    dec.active := false
    dec.prevEdge := .none
    dec.elapsed := 0
    dec.shift := 0x0000#16
    dec.bit := 0#3
    dec.byte := 0
    dec.total := s.params.frameCap }

/-! ## Meanings -/

/-- The meaning of RX_SAMPLE (41_decoder.md R121). -/
def execRxSample (level : Bool) (s : State) : Outcome := perform (rxSample level) s

/-- The meaning of EDGE (41_decoder.md R125). -/
def execEdge (dir : Dir) (s : State) : Outcome := perform (edge dir) s

/-- The meaning of RESET_DECODER (41_decoder.md R143). -/
def execResetDecoder (s : State) : Outcome := perform resetDecoder s

end Sys2Proof.Machine
end

