-- ==== Sys2Proof/Machine/Encoder.lean ====
section
/-! DEFINITION. The encoder's operations: START_ENCODE and ENC_TICK (40_encoder.md). -/

namespace Sys2Proof.Machine

/-- `min(len, P)`: an oversized length is clamped silently (40_encoder.md R102, R103). -/
def clampLength (p : Params) (len : Nat) : Nat := min len p.payloadCap

/-- Copy the clamped payload behind the sync field, then write the sync field (40_encoder.md R102). -/
def loadFrame (p : Params) (clamped : List Byte) (m : Memory) : Memory :=
  ((m.writeBytes 2 clamped).write 0 (syncByte0 p)).write 1 (syncByte1 p)

/-- START_ENCODE (40_encoder.md R102): clamp the length, copy the clamped payload behind the sync field,
and restart the session. `tx`, the bytes behind the copied payload and the decoder keep their values. -/
def startEncode (len : Nat) (payload : List Byte) (s : State) : State :=
  { s with
    enc.buf := loadFrame s.params (payload.take (clampLength s.params len)) s.enc.buf
    enc.bit := 0#3
    enc.byte := 0
    enc.total := clampLength s.params len + 2
    enc.vclk := Config.vclk0
    enc.phase := 0
    enc.active := true }

/-- The data bit at the encoder's cursor (40_encoder.md R104). -/
def currentBit (s : State) : Bool :=
  wirebit s.params.order (s.enc.buf.read s.enc.byte) s.enc.bit

/-- The mid-bit and the end-of-bit write: the data bit XOR the virtual clock goes on the line, and the
clock flips (40_encoder.md R104). -/
def writeLine (s : State) : State :=
  { s with enc.tx := currentBit s ^^ s.enc.vclk, enc.vclk := !s.enc.vclk }

/-- The bit cursor advances, on wrap the byte cursor (40_encoder.md R104). -/
def advanceEncCursor (s : State) : State :=
  if s.enc.bit = 7#3 then { s with enc.bit := 0#3, enc.byte := s.enc.byte + 1 }
  else { s with enc.bit := s.enc.bit + 1#3 }

/-- The session ends when the byte cursor reaches the total (40_encoder.md R104, R106). -/
def endIfSent (s : State) : State :=
  if s.enc.byte = s.enc.total then { s with enc.active := false } else s

/-- The phase after the increment with which ENC_TICK begins, 1 to `N` (40_encoder.md R104). -/
def nextPhase (s : State) : Nat := s.enc.phase + 1

/-- The line is written at the mid-bit and at the end-of-bit tick, and at no other (40_encoder.md R104). -/
def writeLineIfDue (s : State) : State :=
  if isMidBit s.params (nextPhase s) || isEndOfBit s.params (nextPhase s) then writeLine s else s

/-- `enc_phase <- p`. -/
def setPhase (ph : Nat) (s : State) : State := { s with enc.phase := ph }

/-- ENC_TICK (40_encoder.md R104): the phase is incremented first; phase `N/2` and phase `N` write the
line, and at phase `N` the cursor advances and the phase wraps to 0. Nothing while inactive (R107). -/
def encTick (s : State) : State :=
  if s.enc.active then
    if isEndOfBit s.params (nextPhase s) then
      setPhase 0 (endIfSent (advanceEncCursor (writeLineIfDue s)))
    else setPhase (nextPhase s) (writeLineIfDue s)
  else s

/-- The meaning of START_ENCODE. Its side operand has exactly `P` bytes or the operation is refused
(30_encoding.md R90); every length is an operand (40_encoder.md R102). -/
def execStartEncode (len : Nat) (payload : List Byte) (s : State) : Outcome :=
  if paramsValid s.params ∧ payload.length ≠ s.params.payloadCap then .refused .reservedWord
  else perform (startEncode len payload) s

end Sys2Proof.Machine
end

