-- ==== Sys2Proof/Machine/Timing.lean ====
section
/-! DEFINITION. TICK and NOP (42_events_and_ports.md R161, R162). -/

namespace Sys2Proof.Machine

/-- TICK: ENC_TICK, then DEC_TICK (42_events_and_ports.md R161). -/
def tick (s : State) : State := decTick (encTick s)

/-- The meaning of TICK (42_events_and_ports.md R161). -/
def execTick (s : State) : Outcome := perform tick s

/-- The meaning of NOP: no change of state, `out.ready = 0` (42_events_and_ports.md R162). -/
def execNop (s : State) : Outcome := perform (fun t => t) s

end Sys2Proof.Machine
end

