-- ==== Sys2Proof/Machine/Dispatch.lean ====
section
/-! DEFINITION. The meaning of every operation: one arm per constructor of `Instr`. -/

namespace Sys2Proof.Machine

def exec (i : Instr) (s : State) : Host.Outcome State Fault Refusal :=
  match i with
  | .nop => Sys2Proof.Machine.execNop s
  | .tick => Sys2Proof.Machine.execTick s
  | .rxSample level => Sys2Proof.Machine.execRxSample level s
  | .edge dir => Sys2Proof.Machine.execEdge dir s
  | .resetDecoder => Sys2Proof.Machine.execResetDecoder s
  | .startEncode len payload => Sys2Proof.Machine.execStartEncode len payload s

end Sys2Proof.Machine
end

