-- ==== Sys2Proof/Machine/Ports.lean ====
section
/-! DEFINITION. The clocked block: the order of operations within one clock cycle, power-on reset, the
outputs and the read port (42_events_and_ports.md R165 to R174). -/

namespace Sys2Proof.Machine

/-- Byte `i` of the `start_payload` port: bits [8*i+7 : 8*i] (42_events_and_ports.md R165). -/
def payloadByte (port : Nat) (i : Nat) : Byte := BitVec.ofNat 8 (port >>> (8 * i))

/-- The `P` bytes of the `start_payload` port (42_events_and_ports.md R165). -/
def payloadBytes (payloadCap : Nat) (port : Nat) : List Byte :=
  (List.range payloadCap).map (payloadByte port)

/-- The operations of one clock cycle with `rst == 0`, in their order (42_events_and_ports.md R166). The
START_ENCODE ports are read only when `start` is 1 (R171). -/
def cycleOps (p : Params) (ports : PortsIn) : List Instr :=
  (if ports.tick then [.tick] else []) ++
  [.rxSample ports.rx] ++
  (if ports.start then
    [.startEncode ports.startLen (payloadBytes p.payloadCap ports.startPayload)] else []) ++
  (if ports.resetDecoder then [.resetDecoder] else [])

/-- Perform operations one after the other, each on the state left by the one before. The result's
`outReady` says whether any of them called `notify()` (42_events_and_ports.md R167). -/
def runOps (is : List Instr) (s : State) : Outcome :=
  match is with
  | [] => .next (beginOp s)
  | i :: rest =>
    match exec i s with
    | .next t =>
      match runOps rest t with
      | .next u => .next { u with outReady := t.outReady || u.outReady }
      | .fault f => .fault f
      | .refused r => .refused r
    | .fault f => .fault f
    | .refused r => .refused r

/-- Power-on reset (70_reset_and_hazards.md R200): every element takes its reset value. The parameters
are fixed when the block is built, and what the outside presents next is not the block's. -/
def powerOnReset (s : State) : State := { State.powerOn s.params with inputs := s.inputs }

/-- One clock cycle (42_events_and_ports.md R166, R167, R170). A cycle with `rst == 1` resets the block
whatever its state holds. -/
def clockCycle (ports : PortsIn) (s : State) : Outcome :=
  if ¬ paramsValid s.params then .refused .badConfig
  else if ports.rst then .next (powerOnReset s)
  else
    match runOps (cycleOps s.params ports) s with
    | .next t => .next { t with frameReadyQ := t.outReady }
    | .fault f => .fault f
    | .refused r => .refused r

/-- The inputs of a cycle in which `tx` is wired to `rx` outside the block: `tx` is a register, so the
cycle samples its value at the cycle's start (42_events_and_ports.md R168, R174). -/
def wireLoopback (ports : PortsIn) (s : State) : PortsIn := { ports with rx := s.enc.tx }

/-- The decoder buffer read port: 0x00 for an index that does not exist (42_events_and_ports.md R169).
A read changes nothing (20_memory.md R70). -/
def readPort (s : State) (addr : Nat) : Byte :=
  if addr < s.params.frameCap then s.dec.buf.read addr else 0x00#8

/-- The outputs of the clocked block (42_events_and_ports.md R165). -/
structure PortsOut where
  tx : Bool
  encBusy : Bool
  decState : BitVec 2
  rxCount : Nat
  frameReady : Bool
  rdData : Byte
  deriving DecidableEq, Repr

/-- The outputs during a cycle: functions of the state at the cycle's start and of the `rd_addr` input
(42_events_and_ports.md R167 to R169). -/
def portsOut (s : State) (rdAddr : Nat) : PortsOut where
  tx := s.enc.tx
  encBusy := s.enc.active
  decState := decodeStateCode s.dec.state
  rxCount := s.dec.byte
  frameReady := s.frameReadyQ
  rdData := readPort s rdAddr

end Sys2Proof.Machine
end

