-- ==== Sys2Proof/Machine/Step.lean ====
section
/-! DEFINITION. One step: perform what the outside presents next (00_scope.md R12,
42_events_and_ports.md R164, R166). -/

namespace Sys2Proof.Machine

/-- The state with what the outside presents next taken away. -/
def State.dropInput (s : State) : State := { s with inputs := s.inputs.tail }

/-- One step (42_events_and_ports.md R164): a bad configuration is refused before anything else; a word is
checked, its operands assembled and its operation performed; a clock cycle is performed by R166. Where
nothing is presented the step is NOP, "the cycle-level no-input case" (R162, log 2). -/
def step (s : State) : Host.Outcome State Fault Refusal :=
  match s.inputs with
  | [] => exec .nop s
  | .word w side :: _ =>
    if ¬ paramsValid s.params then .refused .badConfig
    else
      match decode s.params.payloadCap w side with
      | .ok i => exec i s.dropInput
      | .error _ => .refused .reservedWord
  | .loopRx :: _ => exec (.rxSample s.enc.tx) s.dropInput
  | .cycle ports :: _ => clockCycle ports s.dropInput
  | .loopCycle ports :: _ => clockCycle (wireLoopback ports s) s.dropInput

/-- The state from which a run goes on after a step: a refused step changes nothing and is not final
(60_exceptions.md R181); the outside has presented what was refused, and presents the next (log 5). -/
def advance (s : State) : State :=
  match step s with
  | .next t => t
  | .fault _ => s.dropInput
  | .refused _ => s.dropInput

/-- The operation of `nbits` bits `w`, with a side operand of zeros, presented before everything else:
the next step performs it (log 2). -/
def State.withFetchWord (s : State) (nbits w : Nat) : State :=
  { s with
    inputs := .word (BitVec.ofNat 32 (w % 2 ^ nbits)) (zeroSide s.params.payloadCap) :: s.inputs }

end Sys2Proof.Machine
end

