-- ==== Sys2Proof/Machine/Trace.lean ====
section
/-! DEFINITION. Trace syntax and pseudo-operations (30_encoding.md R92, R93): the text of a line, the line
it stands for, and the inputs it presents to the block. Text is a list of characters. -/

namespace Sys2Proof.Machine

/-- A trace line (30_encoding.md R92, R93). -/
inductive TraceLine where
  | nop
  | tick
  | rx (level : Bool)
  | edge (dir : Dir)
  | rstdec
  | start (len : Nat) (bytes : List Byte)
  | ticks (n : Nat)
  | lbtick
  | lbticks (n : Nat)
  deriving DecidableEq, Repr

/-- The word and side operand of an operation, as an input of the block. -/
def inputOf (i : Instr) : Input := .word (encodeWord i) (encodeSide i)

/-- `n` copies of a list, one after the other. -/
def copies (n : Nat) (xs : List Input) : List Input :=
  match n with
  | 0 => []
  | k + 1 => xs ++ copies k xs

/-- `lbtick -> tick ; rx <s.tx>` (30_encoding.md R93). -/
def lbtickInputs : List Input := [inputOf .tick, .loopRx]

/-- What a line presents to the block (30_encoding.md R92, R93); `none` where the line is refused: a
`start` with more than `P` bytes or a length at or above `2^16`. A shorter list is padded with 0x00. -/
def traceInputs (payloadCap : Nat) (l : TraceLine) : Option (List Input) :=
  match l with
  | .nop => some [inputOf .nop]
  | .tick => some [inputOf .tick]
  | .rx level => some [inputOf (.rxSample level)]
  | .edge d => some [inputOf (.edge d)]
  | .rstdec => some [inputOf .resetDecoder]
  | .start len bytes =>
    if bytes.length ≤ payloadCap ∧ len < 2 ^ 16 then
      some [inputOf (.startEncode len (bytes ++ zeroSide (payloadCap - bytes.length)))]
    else none
  | .ticks n => some (copies n [inputOf .tick])
  | .lbtick => some lbtickInputs
  | .lbticks n => some (copies n lbtickInputs)

/-- What a whole trace presents; `none` if a line of it is refused. -/
def traceProgram (payloadCap : Nat) (ls : List TraceLine) : Option (List Input) :=
  match ls with
  | [] => some []
  | l :: rest =>
    match traceInputs payloadCap l, traceProgram payloadCap rest with
    | some a, some b => some (a ++ b)
    | _, _ => none

/-! ## The text of a line -/

/-- The text before a comment, which `;` starts (30_encoding.md R92). -/
def stripComment (cs : List Char) : List Char :=
  match cs with
  | [] => []
  | c :: rest => if c = ';' then [] else c :: stripComment rest

/-- A word of the text collected so far (backwards), put before the words that follow. -/
def closeWord (word : List Char) (rest : List (List Char)) : List (List Char) :=
  if word = [] then rest else word.reverse :: rest

/-- The words of a line: separated by blanks; a comma and a bracket are words of their own. -/
def traceWords (word : List Char) (cs : List Char) : List (List Char) :=
  match cs with
  | [] => closeWord word []
  | c :: rest =>
    if c = ' ' ∨ c = '\t' then closeWord word (traceWords [] rest)
    else if c = ',' ∨ c = '[' ∨ c = ']' then closeWord word ([c] :: traceWords [] rest)
    else traceWords (c :: word) rest

/-- The value of a digit in the base given, if it is one. -/
def digitOf (base : Nat) (c : Char) : Option Nat :=
  let n := c.toNat
  let v :=
    if '0'.toNat ≤ n ∧ n ≤ '9'.toNat then n - '0'.toNat
    else if 'a'.toNat ≤ n ∧ n ≤ 'f'.toNat then n - 'a'.toNat + 10
    else if 'A'.toNat ≤ n ∧ n ≤ 'F'.toNat then n - 'A'.toNat + 10
    else 16
  if v < base then some v else none

/-- Digits in the base given, the most significant first, after the value of those before. -/
def digitsOf (base acc : Nat) (cs : List Char) : Option Nat :=
  match cs with
  | [] => some acc
  | c :: rest =>
    match digitOf base c with
    | some v => digitsOf base (acc * base + v) rest
    | none => none

/-- A number: decimal, or hexadecimal with `0x` (30_encoding.md R92). -/
def numberOf (cs : List Char) : Option Nat :=
  match cs with
  | '0' :: 'x' :: c :: rest => digitsOf 16 0 (c :: rest)
  | c :: rest => digitsOf 10 0 (c :: rest)
  | [] => none

/-- A byte of a `start` list: a number below 256. -/
def byteOf (cs : List Char) : Option Byte :=
  match numberOf cs with
  | some n => if n < 256 then some (BitVec.ofNat 8 n) else none
  | none => none

/-- The rest of a byte list, behind one of its bytes: a comma and a byte, any number of times, then the
closing bracket. -/
def bytesTail (ws : List (List Char)) : Option (List Byte) :=
  match ws with
  | [[']']] => some []
  | [','] :: w :: rest =>
    match byteOf w, bytesTail rest with
    | some b, some bs => some (b :: bs)
    | _, _ => none
  | _ => none

/-- The bytes behind the opening bracket of a `start` list. -/
def bytesOf (ws : List (List Char)) : Option (List Byte) :=
  match ws with
  | [[']']] => some []
  | w :: rest =>
    match byteOf w, bytesTail rest with
    | some b, some bs => some (b :: bs)
    | _, _ => none
  | [] => none

/-- The line that words stand for (30_encoding.md R92, R93). DESIGN CHOICE (log 18): the level of `rx` is
one of the two texts `0` and `1` of R92's table, not a number, so `rx 0x1` and `rx 01` are no lines. -/
def traceLineOf (ws : List (List Char)) : Option TraceLine :=
  match ws with
  | [['n', 'o', 'p']] => some .nop
  | [['t', 'i', 'c', 'k']] => some .tick
  | [['r', 'x'], ['0']] => some (.rx false)
  | [['r', 'x'], ['1']] => some (.rx true)
  | [['e', 'd', 'g', 'e'], ['f', 'a', 'l', 'l']] => some (.edge .falling)
  | [['e', 'd', 'g', 'e'], ['r', 'i', 's', 'e']] => some (.edge .rising)
  | [['r', 's', 't', 'd', 'e', 'c']] => some .rstdec
  | ['s', 't', 'a', 'r', 't'] :: len :: [','] :: ['['] :: rest =>
    match numberOf len, bytesOf rest with
    | some n, some bs => some (.start n bs)
    | _, _ => none
  | [['t', 'i', 'c', 'k', 's'], n] => (numberOf n).map .ticks
  | [['l', 'b', 't', 'i', 'c', 'k']] => some .lbtick
  | [['l', 'b', 't', 'i', 'c', 'k', 's'], n] => (numberOf n).map .lbticks
  | _ => none

/-- A line of text: the trace line it holds, `some none` for one with nothing but a comment, `none` for
one that is no line of the syntax. -/
def parseTraceLine (cs : List Char) : Option (Option TraceLine) :=
  match traceWords [] (stripComment cs) with
  | [] => some none
  | ws =>
    match traceLineOf ws with
    | some l => some (some l)
    | none => none

end Sys2Proof.Machine
end

