-- ==== Sys2Proof/Safety.lean ====
section
/-! DEFINITION. What counts as a safe state and a safe run, in the terms the statements use. -/

namespace Sys2Proof.Machine

/-- An operation has a meaning in this state (60_exceptions.md R180, R181): the parameters meet their
constraints and the state holds only values that some rule writes. -/
abbrev operable (s : State) : Prop := paramsValid s.params ∧ valuesOk s

/-- The byte cursor of an idle decoder is in the frame. 10_state.md R43 and R44 do not say it, and without
it arming (41_decoder.md R126) would not keep R43's `dec_active -> dec_byte < dec_total`; power-on reset
and RESET_DECODER leave the cursor 0 (R45), so every run has it (log 15). -/
abbrev idleCursorOk (s : State) : Prop :=
  s.dec.state = .notSynchronized → s.dec.byte < s.params.frameCap

/-- An operation has a meaning in this state, and in every state it leads to. -/
abbrev coreInv (s : State) : Prop := operable s ∧ idleCursorOk s

/-- Both buffers are in the canonical form and list only bytes that exist (20_memory.md R60 to R62). -/
abbrev buffersOk (s : State) : Prop :=
  (s.enc.buf.wf ∧ s.enc.buf.below s.params.frameCap) ∧
  (s.dec.buf.wf ∧ s.dec.buf.below s.params.frameCap)

/-- The invariant of the block (10_state.md R43, R44, with the idle cursor and the buffers' form). -/
abbrev blockInv (s : State) : Prop := coreInv s ∧ buffersOk s

/-- The encoder's own invariant: the virtual clock follows the phase (10_state.md R27, 40_encoder.md
R105), an inactive session has ended on a byte boundary (R106), an active one has a sync field. -/
abbrev encoderOk (s : State) : Prop :=
  (s.enc.active = true → s.enc.vclk = decide (s.enc.phase < s.params.ticksPerBit / 2)) ∧
  (s.enc.active = false → s.enc.phase = 0 ∧ s.enc.bit = 0#3 ∧ s.enc.byte = s.enc.total ∧
    s.enc.vclk = Config.vclk0) ∧
  (s.enc.active = true → 2 ≤ s.enc.total ∧
    s.enc.buf.read 0 = syncByte0 s.params ∧ s.enc.buf.read 1 = syncByte1 s.params)

/-- `DecBuf` holds a frame, in reception or complete: from the sync match on (41_decoder.md R132), until a
reset. -/
abbrev inFrame (s : State) : Prop :=
  s.dec.state = .dataSynchronized ∨ s.dec.state = .dataReady

/-- What `DecBuf` shows around the bits extracted so far: the sync bytes in front, and zeros from the cursor
on (70_reset_and_hazards.md R213). What becomes of the extracted bits is `extractedBitsKept`. -/
def receivedFrameOk (s : State) : Prop :=
  inFrame s →
    s.dec.buf.read 0 = syncByte0 s.params ∧ s.dec.buf.read 1 = syncByte1 s.params ∧
    (∀ i, s.dec.byte < i → s.dec.buf.read i = 0x00#8) ∧
    (∀ k : BitVec 3, s.dec.bit.toNat ≤ k.toNat →
      wirebit s.params.order (s.dec.buf.read s.dec.byte) k = false)

/-- A step from `s` to `t` within a frame leaves every bit before the old cursor as it was, and the cursor
where it was or further on (41_decoder.md R134, 70_reset_and_hazards.md R213). -/
def extractedBitsKept (s t : State) : Prop :=
  inFrame s → inFrame t →
    (s.dec.byte < t.dec.byte ∨ s.dec.byte = t.dec.byte ∧ s.dec.bit.toNat ≤ t.dec.bit.toNat) ∧
    (∀ i, i < s.dec.byte → t.dec.buf.read i = s.dec.buf.read i) ∧
    (∀ k : BitVec 3, k.toNat < s.dec.bit.toNat →
      wirebit s.params.order (t.dec.buf.read s.dec.byte) k =
        wirebit s.params.order (s.dec.buf.read s.dec.byte) k)

/-- The direction of the EDGE that an operation performs in a state, if it performs one
(41_decoder.md R121, R125). -/
def performsEdge (i : Instr) (s : State) : Option Dir :=
  match i with
  | .nop => none
  | .tick => none
  | .rxSample level =>
    if s.det.rxSeen = true ∧ level ≠ s.det.rxPrev then some (dirOfLevel level) else none
  | .edge d => some d
  | .resetDecoder => none
  | .startEncode _ _ => none

/-- The decode state after an operation, as the table of 41_decoder.md R145 gives it: every transition it
lists, and for every other pair the state unchanged. -/
def nextDecodeState (i : Instr) (s : State) : DecodeState :=
  if i = .resetDecoder then .notSynchronized
  else
    match s.dec.state, performsEdge i s with
    | .notSynchronized, some d =>
      if s.dec.active = true ∧ s.dec.prevEdge ≠ .none ∧ edgeOfDir d ≠ s.dec.prevEdge ∧
          s.params.syncThreshold ≤ s.dec.elapsed then .bitSynchronized
      else .notSynchronized
    | .bitSynchronized, some d =>
      if s.params.syncThreshold ≤ s.dec.elapsed ∧
          (s.dec.shift <<< 1 ||| (if d = .rising then 1#16 else 0#16)) = s.params.sync then
        .dataSynchronized
      else .bitSynchronized
    | .dataSynchronized, some _ =>
      if s.params.syncThreshold ≤ s.dec.elapsed ∧ s.dec.bit = 7#3 ∧
          s.dec.byte + 1 = s.params.frameCap then .dataReady
      else .dataSynchronized
    | .dataSynchronized, none =>
      if i = .tick ∧ s.params.watchdogTicks < s.dec.elapsed + 1 then .dataReady
      else .dataSynchronized
    | .notSynchronized, none => .notSynchronized
    | .bitSynchronized, none => .bitSynchronized
    | .dataReady, _ => .dataReady

/-- Bit `j` of the frame that carries a payload, in wire order: the 16 bits of `SYNC`, then the bits of
the payload bytes (30_encoding.md R83). -/
def frameBit (p : Params) (payload : List Byte) (j : Nat) : Bool :=
  if j < 16 then p.sync.getLsbD (15 - j)
  else wirebit p.order (payload.getD ((j - 16) / 8) 0x00#8) (BitVec.ofNat 3 ((j - 16) % 8))

/-- `n` times `lbtick` (30_encoding.md R93): TICK, then a sample of the line's level. The state after
them, and how many of the operations called `notify()`. -/
def loopback (n : Nat) (s : State) : Option (State × Nat) :=
  match n with
  | 0 => some (s, 0)
  | k + 1 =>
    match exec .tick s with
    | .next t =>
      match exec (.rxSample t.enc.tx) t with
      | .next u => (loopback k u).map fun r => (r.1, t.outReady.toNat + u.outReady.toNat + r.2)
      | .fault _ => none
      | .refused _ => none
    | .fault _ => none
    | .refused _ => none

end Sys2Proof.Machine
end

