-- ==== Sys2Proof/Certificates/Slice0/Obligations.lean ====
section
/-! DEFINITION. The statements for the provers, family by family: the operations, the decoder as a state
machine, operation words, the step, the clocked block, bits and codes, and the headline results.
Each docstring names the rule it formalises; "log <n>" is notes/assumptions/<n>.md. -/

open Sys2Proof Sys2Proof.Machine

/-! ## NOP and TICK -/

/-- 42_events_and_ports.md R162: NOP, whose word is 0x00000000, changes no state and returns
`out.ready = 0`. That the word decodes to NOP with any side operand beside it, not only an empty one, is
the model's choice (log 6; 30_encoding.md R90 does not list the case). -/
def Obligations.NopChangesNothing : Prop :=
  (∀ (payloadCap : Nat) (side : List Byte), decode payloadCap 0x00000000#32 side = .ok .nop) ∧
  ∀ s : State, operable s → exec .nop s = .next { s with outReady := false }

/-- 40_encoder.md R104, R107: what TICK does to the encode session, in every case, and that nothing
outside the two sessions changes (42_events_and_ports.md R161). `EncBuf` keeps every byte; the encoder
notifies nobody, so a TICK with an inactive decoder returns `out.ready = 0`. -/
def Obligations.TickEncoderEffect : Prop :=
  ∀ s : State, operable s → ∃ t, exec .tick s = .next t ∧
    t.params = s.params ∧ t.det = s.det ∧ t.frameReadyQ = s.frameReadyQ ∧ t.inputs = s.inputs ∧
    (s.dec.active = false → t.outReady = false) ∧
    t.enc =
      (if s.enc.active = false then s.enc
      else if s.enc.phase + 1 = s.params.ticksPerBit then
        { s.enc with
          tx := wirebit s.params.order (s.enc.buf.read s.enc.byte) s.enc.bit ^^ s.enc.vclk
          vclk := !s.enc.vclk
          phase := 0
          bit := if s.enc.bit = 7#3 then 0#3 else s.enc.bit + 1#3
          byte := if s.enc.bit = 7#3 then s.enc.byte + 1 else s.enc.byte
          active := decide
            ((if s.enc.bit = 7#3 then s.enc.byte + 1 else s.enc.byte) ≠ s.enc.total) }
      else if s.enc.phase + 1 = s.params.ticksPerBit / 2 then
        { s.enc with
          tx := wirebit s.params.order (s.enc.buf.read s.enc.byte) s.enc.bit ^^ s.enc.vclk
          vclk := !s.enc.vclk
          phase := s.enc.phase + 1 }
      else { s.enc with phase := s.enc.phase + 1 })

/-- 41_decoder.md R140, R141: what TICK does to the decode session, in every case, and when it returns
`out.ready = 1`. `DecBuf` keeps every byte. -/
def Obligations.TickDecoderEffect : Prop :=
  ∀ (s : State) (counted : Nat), operable s →
    counted =
      (if s.dec.elapsed < 2 ^ s.params.cntW - 1 then s.dec.elapsed + 1 else s.dec.elapsed) →
    ∃ t, exec .tick s = .next t ∧
      t.dec =
        (if s.dec.active = false then s.dec
        else if s.dec.state = .dataSynchronized ∧ s.params.watchdogTicks < counted then
          { s.dec with
            elapsed := counted, active := false, prevEdge := .none, state := .dataReady }
        else { s.dec with elapsed := counted }) ∧
      (t.outReady = true ↔ s.dec.active = true ∧ s.dec.state = .dataSynchronized ∧
        s.params.watchdogTicks < counted)

/-- 40_encoder.md R105: the mid-bit write drives the complement of the data bit and the end-of-bit write
drives the data bit, so the centre transition is rising for 1 and falling for 0. -/
def Obligations.LineLevelsFollowDataBit : Prop :=
  ∀ s : State, operable s → encoderOk s → s.enc.active = true →
    (s.enc.phase + 1 = s.params.ticksPerBit / 2 → ∃ t, exec .tick s = .next t ∧
      t.enc.tx = !wirebit s.params.order (s.enc.buf.read s.enc.byte) s.enc.bit) ∧
    (s.enc.phase + 1 = s.params.ticksPerBit → ∃ t, exec .tick s = .next t ∧
      t.enc.tx = wirebit s.params.order (s.enc.buf.read s.enc.byte) s.enc.bit)

/-- 40_encoder.md R106: the end-of-bit write of the last bit ends the session, and the line is left at
that bit's value however many ticks follow. -/
def Obligations.LastBitEndsTransmission : Prop :=
  ∀ s : State, operable s → encoderOk s → s.enc.active = true →
    s.enc.phase + 1 = s.params.ticksPerBit → s.enc.bit = 7#3 → s.enc.byte + 1 = s.enc.total →
    ∃ t, exec .tick s = .next t ∧
      t.enc = { s.enc with
        tx := wirebit s.params.order (s.enc.buf.read s.enc.byte) s.enc.bit
        vclk := true, phase := 0, bit := 0#3, byte := s.enc.total, active := false } ∧
      ∀ n, ∃ u, runOps (List.replicate n .tick) t = .next u ∧ u.enc = t.enc

/-! ## RX_SAMPLE -/

/-- 41_decoder.md R121, R122 (a) to (c), (f): the first sample only initialises the detector; an equal
sample changes nothing; a change of level performs exactly the EDGE of its direction. -/
def Obligations.RxSampleEffect : Prop :=
  ∀ (level : Bool) (s : State), operable s →
    if s.det.rxSeen = false then
      exec (.rxSample level) s =
        .next { s with det := { rxPrev := level, rxSeen := true }, outReady := false }
    else if level = s.det.rxPrev then
      exec (.rxSample level) s = .next { s with outReady := false }
    else
      ∃ t, exec (.rxSample level) s = .next t ∧
        exec (.edge (if level = true then .rising else .falling))
          { s with det := { rxPrev := level, rxSeen := true } } = .next t ∧
        t.det = { rxPrev := level, rxSeen := true } ∧
        (s.dec.state = .dataReady → t.dec = s.dec)

/-! ## EDGE -/

/-- 41_decoder.md R126: the first edge seen while idle arms the session without changing the decode
state; everything else is unchanged. -/
def Obligations.EdgeArmsIdleDecoder : Prop :=
  ∀ (d : Dir) (s : State), operable s → s.dec.state = .notSynchronized → s.dec.active = false →
    exec (.edge d) s =
      .next { s with
        dec.active := true, dec.elapsed := 0, dec.prevEdge := edgeOfDir d, outReady := false }

/-- 41_decoder.md R127: an armed edge locks exactly on an alternation at least `T` ticks after the
previous edge; every edge restarts the counter; everything else is unchanged. -/
def Obligations.EdgeInArmedNotSynchronized : Prop :=
  ∀ (d : Dir) (s : State), operable s → s.dec.state = .notSynchronized → s.dec.active = true →
    if s.dec.prevEdge ≠ .none ∧ edgeOfDir d ≠ s.dec.prevEdge ∧
        s.params.syncThreshold ≤ s.dec.elapsed then
      exec (.edge d) s =
        .next { s with
          dec.shift := if d = .rising then 0x0001#16 else 0x0002#16
          dec.state := .bitSynchronized
          dec.elapsed := 0
          dec.prevEdge := edgeOfDir d
          outReady := false }
    else
      exec (.edge d) s =
        .next { s with dec.elapsed := 0, dec.prevEdge := edgeOfDir d, outReady := false }

/-- 41_decoder.md R131, R132: a non-qualifying edge is only recorded; a qualifying one shifts its bit in
and restarts the counter; on an exact match the sync field is stored, the payload bytes are cleared and
the cursors stand behind it. Every byte of `DecBuf` from `C` on, and everything else, is unchanged. -/
def Obligations.EdgeInBitSynchronized : Prop :=
  ∀ (d : Dir) (s : State), operable s → s.dec.state = .bitSynchronized →
    if s.dec.elapsed < s.params.syncThreshold then
      exec (.edge d) s = .next { s with dec.prevEdge := edgeOfDir d, outReady := false }
    else if (s.dec.shift <<< 1 ||| (if d = .rising then 1#16 else 0#16)) ≠ s.params.sync then
      exec (.edge d) s =
        .next { s with
          dec.shift := s.dec.shift <<< 1 ||| (if d = .rising then 1#16 else 0#16)
          dec.elapsed := 0
          dec.prevEdge := edgeOfDir d
          outReady := false }
    else
      ∃ t, exec (.edge d) s = .next t ∧
        t = { s with
          dec := {
            buf := t.dec.buf
            bit := 0#3
            byte := 2
            total := s.params.frameCap
            active := s.dec.active
            state := .dataSynchronized
            shift := s.params.sync
            elapsed := 0
            prevEdge := edgeOfDir d }
          outReady := false } ∧
        ∀ i, t.dec.buf.read i =
          if i = 0 then wireToByte s.params.order (s.params.sync.extractLsb' 8 8)
          else if i = 1 then wireToByte s.params.order (s.params.sync.extractLsb' 0 8)
          else if i < s.params.frameCap then 0x00#8
          else s.dec.buf.read i

/-- 41_decoder.md R134, R135: a non-qualifying edge is only recorded; a qualifying one extracts its bit
into the byte and bit at the cursor, leaves every other bit of `DecBuf`, and advances the cursor; the
edge that completes byte `C-1` completes the frame and returns `out.ready = 1`. -/
def Obligations.EdgeInDataSynchronized : Prop :=
  ∀ (d : Dir) (s : State) (full : Bool), operable s → s.dec.state = .dataSynchronized →
    full = decide (s.dec.bit = 7#3 ∧ s.dec.byte + 1 = s.params.frameCap) →
    if s.dec.elapsed < s.params.syncThreshold then
      exec (.edge d) s = .next { s with dec.prevEdge := edgeOfDir d, outReady := false }
    else
      ∃ t, exec (.edge d) s = .next t ∧
        t = { s with
          dec := {
            buf := t.dec.buf
            bit := if s.dec.bit = 7#3 then 0#3 else s.dec.bit + 1#3
            byte := if s.dec.bit = 7#3 then s.dec.byte + 1 else s.dec.byte
            total := s.params.frameCap
            active := !full
            state := if full = true then .dataReady else .dataSynchronized
            shift := s.dec.shift
            elapsed := 0
            prevEdge := if full = true then .none else edgeOfDir d }
          outReady := full } ∧
        (∀ i, i ≠ s.dec.byte → t.dec.buf.read i = s.dec.buf.read i) ∧
        (∀ k : BitVec 3, wirebit s.params.order (t.dec.buf.read s.dec.byte) k =
          if k = s.dec.bit ∧ d = .rising then true
          else wirebit s.params.order (s.dec.buf.read s.dec.byte) k)

/-- 41_decoder.md R137: in DataReady an EDGE changes no state at all, and DEC_TICK changes nothing. -/
def Obligations.DataReadyIgnoresEdgeAndTick : Prop :=
  ∀ s : State, operable s → s.dec.state = .dataReady →
    (∀ d, exec (.edge d) s = .next { s with outReady := false }) ∧
    ∃ t, exec .tick s = .next t ∧ t.dec = s.dec ∧ t.outReady = false

/-! ## RESET_DECODER -/

/-- 41_decoder.md R143: the decoder's control state returns to idle; `DecBuf`, the edge detector and all
encoder state are unchanged; no notification. -/
def Obligations.ResetDecoderEffect : Prop :=
  ∀ s : State, operable s →
    exec .resetDecoder s =
      .next { s with
        dec := {
          buf := s.dec.buf
          bit := 0#3
          byte := 0
          total := s.params.frameCap
          active := false
          state := .notSynchronized
          shift := 0x0000#16
          elapsed := 0
          prevEdge := .none }
        outReady := false }

/-- 41_decoder.md R144 (a): two RESET_DECODERs in a row give the same state as one. -/
def Obligations.ResetDecoderIsIdempotent : Prop :=
  ∀ s : State, operable s →
    ∃ t, exec .resetDecoder s = .next t ∧ exec .resetDecoder t = .next t

/-! ## START_ENCODE -/

/-- 40_encoder.md R102: the length is clamped to `P`; the sync field and the clamped payload are stored;
the session restarts; `tx`, every other byte of `EncBuf`, and everything else is unchanged. -/
def Obligations.StartEncodeEffect : Prop :=
  ∀ (len : Nat) (payload : List Byte) (s : State), operable s →
    payload.length = s.params.frameCap - 2 →
    ∃ t, exec (.startEncode len payload) s = .next t ∧
      t = { s with
        enc := {
          buf := t.enc.buf
          bit := 0#3
          byte := 0
          total := min len (s.params.frameCap - 2) + 2
          active := true
          phase := 0
          vclk := true
          tx := s.enc.tx }
        outReady := false } ∧
      ∀ i, t.enc.buf.read i =
        if i = 0 then wireToByte s.params.order (s.params.sync.extractLsb' 8 8)
        else if i = 1 then wireToByte s.params.order (s.params.sync.extractLsb' 0 8)
        else if i < 2 + min len (s.params.frameCap - 2) then payload.getD (i - 2) 0x00#8
        else s.enc.buf.read i

/-- 40_encoder.md R103 (d), (e): a second START_ENCODE wins entirely: after it the block is as if the
first had not been, but for bytes of `EncBuf` behind its own frame. -/
def Obligations.StartEncodeSupersedes : Prop :=
  ∀ (len₁ len₂ : Nat) (payload₁ payload₂ : List Byte) (s : State), operable s →
    payload₁.length = s.params.payloadCap → payload₂.length = s.params.payloadCap →
    ∃ t u v, exec (.startEncode len₁ payload₁) s = .next t ∧
      exec (.startEncode len₂ payload₂) t = .next u ∧
      exec (.startEncode len₂ payload₂) s = .next v ∧
      u = { v with enc.buf := u.enc.buf } ∧
      ∀ i, i < v.enc.total → u.enc.buf.read i = v.enc.buf.read i

/-- 30_encoding.md R90: a START_ENCODE whose side operand has not exactly `P` bytes is refused. -/
def Obligations.StartEncodeWrongPayloadRefused : Prop :=
  ∀ (len : Nat) (payload : List Byte) (s : State), paramsValid s.params →
    payload.length ≠ s.params.payloadCap →
    exec (.startEncode len payload) s = .refused .reservedWord

/-! ## All operations -/

/-- 60_exceptions.md R180: every operation is defined in every state that holds only reachable values,
for every operand that a word and its side operand can carry. -/
def Obligations.OperationsCompleteWhereOperable : Prop :=
  ∀ (i : Instr) (s : State), operable s → i.wellFormed s.params.payloadCap = true →
    ∃ t, exec i s = .next t

/-- 60_exceptions.md R181 (3): an operation in a state that holds a value no rule writes is refused. -/
def Obligations.UnreachableStateRefused : Prop :=
  ∀ (i : Instr) (s : State), paramsValid s.params → ¬ valuesOk s →
    i.wellFormed s.params.payloadCap = true → exec i s = .refused .unreachableValue

/-- 10_state.md R41: no operation writes the parameters. That an operation writes neither the clocked
wrapper's register nor the inputs is the model's choice of where they stand (log 2, 4). -/
def Obligations.OperationsLeaveParametersAndWrapper : Prop :=
  ∀ (i : Instr) (s t : State), exec i s = .next t →
    t.params = s.params ∧ t.frameReadyQ = s.frameReadyQ ∧ t.inputs = s.inputs

/-- 40_encoder.md R100: no encoder operation reads or writes decoder state and no decoder operation reads
or writes encoder state: each half's next state depends on that half alone. -/
def Obligations.EncoderAndDecoderAreIndependent : Prop :=
  ∀ (i : Instr) (s₁ s₂ t₁ t₂ : State), s₁.params = s₂.params →
    exec i s₁ = .next t₁ → exec i s₂ = .next t₂ →
    (s₁.enc = s₂.enc → t₁.enc = t₂.enc) ∧
    (s₁.dec = s₂.dec → s₁.det = s₂.det →
      t₁.dec = t₂.dec ∧ t₁.det = t₂.det ∧ t₁.outReady = t₂.outReady)

/-! ## The decoder as a state machine -/

/-- 41_decoder.md R145: every transition of the decode state is in the table. -/
def Obligations.DecodeStateTransitions : Prop :=
  ∀ (i : Instr) (s t : State), exec i s = .next t → t.dec.state = nextDecodeState i s

/-- 41_decoder.md R146: an operation notifies exactly when it takes the decoder from DataSynchronized to
DataReady. -/
def Obligations.NotificationExactlyOnCompletion : Prop :=
  ∀ (i : Instr) (s t : State), exec i s = .next t →
    (t.outReady = true ↔ s.dec.state = .dataSynchronized ∧ t.dec.state = .dataReady)

/-- 60_exceptions.md R187, R195 (c): DataReady lasts until RESET_DECODER; no other sequence of operations
changes the decode session or notifies. -/
def Obligations.DataReadyLastsUntilReset : Prop :=
  ∀ (is : List Instr) (s t : State), s.dec.state = .dataReady → (∀ i ∈ is, i ≠ .resetDecoder) →
    runOps is s = .next t → t.dec = s.dec ∧ t.outReady = false

/-- 41_decoder.md R142 (a), (c): outside DataSynchronized an active decoder's counter counts every tick,
saturates, and the watchdog never fires. -/
def Obligations.CounterSaturatesWithoutWatchdog : Prop :=
  ∀ (s : State) (n : Nat), operable s → s.dec.active = true → s.dec.state ≠ .dataSynchronized →
    ∃ t, runOps (List.replicate n .tick) s = .next t ∧ t.outReady = false ∧
      t.dec = { s.dec with elapsed := min (s.dec.elapsed + n) (2 ^ s.params.cntW - 1) }

/-- 41_decoder.md R141, 60_exceptions.md R195 (a): with ticks alone, DataSynchronized ends with the
notification at the tick that takes the counter from `W` to `W + 1`, and not before. -/
def Obligations.WatchdogEndsDataSynchronized : Prop :=
  ∀ s : State, operable s → s.dec.state = .dataSynchronized →
    (∀ k, s.dec.elapsed + k ≤ s.params.watchdogTicks →
      ∃ t, runOps (List.replicate k .tick) s = .next t ∧
        t.dec = { s.dec with elapsed := s.dec.elapsed + k } ∧ t.outReady = false) ∧
    ∃ t, runOps (List.replicate (s.params.watchdogTicks + 1 - s.dec.elapsed) .tick) s = .next t ∧
      t.dec.state = .dataReady ∧ t.dec.elapsed = s.params.watchdogTicks + 1 ∧ t.outReady = true

/-! ## Operation words -/

/-- 30_encoding.md R87 to R89: decoding the word and side operand of any well-formed operation gives the
operation back, with every operand. -/
def Obligations.DecodeOfEncodeIsTheOperation : Prop :=
  ∀ (i : Instr) (payloadCap : Nat), i.wellFormed payloadCap = true →
    decode payloadCap (encodeWord i) (encodeSide i) = .ok i

/-- 30_encoding.md R87 to R90: each accepted word is the word of one operation only, the one it decodes
to, and that operation is well-formed. -/
def Obligations.EncodeOfDecodeIsTheWord : Prop :=
  ∀ (w : OpWord) (side : List Byte) (payloadCap : Nat) (i : Instr),
    decode payloadCap w side = .ok i →
    encodeWord i = w ∧ i.wellFormed payloadCap = true ∧
      ((opField w).toNat = 5 → encodeSide i = side)

/-- 30_encoding.md R90: a presented word is refused as reserved in exactly the cases the rule lists. That
the list is complete, so that a side operand beside another operation is not refused, is the model's
reading (log 6). -/
def Obligations.ReservedWordsRefusedExactly : Prop :=
  ∀ (s : State) (w : OpWord) (side : List Byte) (rest : List Input),
    paramsValid s.params → s.inputs = .word w side :: rest →
    (step s = .refused .reservedWord ↔
      6 ≤ w.toNat % 16 ∨
      w.toNat / 2 ^ 5 % 2 ^ 11 ≠ 0 ∨
      (w.toNat / 2 ^ 4 % 2 = 1 ∧ w.toNat % 16 ≠ 2 ∧ w.toNat % 16 ≠ 3) ∨
      (w.toNat / 2 ^ 16 ≠ 0 ∧ w.toNat % 16 ≠ 5) ∨
      (w.toNat % 16 = 5 ∧ side.length ≠ s.params.frameCap - 2))

/-- 30_encoding.md R92, R94: every row of the trace syntax presents the word listed for it, for `P = 6`, and
those words and the worked encodings decode, or are refused, as listed. That a word other than
START_ENCODE's decodes so with any side operand beside it, not only an empty one, is the model's choice
(log 6). -/
def Obligations.WorkedWordsDecode : Prop :=
  (traceInputs 6 .nop = some [.word 0x00000000#32 []] ∧
    traceInputs 6 .tick = some [.word 0x00000001#32 []] ∧
    traceInputs 6 (.rx false) = some [.word 0x00000002#32 []] ∧
    traceInputs 6 (.rx true) = some [.word 0x00000012#32 []] ∧
    traceInputs 6 (.edge .falling) = some [.word 0x00000003#32 []] ∧
    traceInputs 6 (.edge .rising) = some [.word 0x00000013#32 []] ∧
    traceInputs 6 .rstdec = some [.word 0x00000004#32 []] ∧
    traceInputs 6 (.start 2 [0x12#8, 0x34#8]) =
      some [.word 0x00020005#32 [0x12#8, 0x34#8, 0#8, 0#8, 0#8, 0#8]] ∧
    traceInputs 6 (.start 300 []) =
      some [.word 0x012C0005#32 [0#8, 0#8, 0#8, 0#8, 0#8, 0#8]]) ∧
  ∀ side : List Byte,
    decode 6 0x00000000#32 side = .ok .nop ∧
    decode 6 0x00000001#32 side = .ok .tick ∧
    decode 6 0x00000002#32 side = .ok (.rxSample false) ∧
    decode 6 0x00000012#32 side = .ok (.rxSample true) ∧
    decode 6 0x00000003#32 side = .ok (.edge .falling) ∧
    decode 6 0x00000013#32 side = .ok (.edge .rising) ∧
    decode 6 0x00000004#32 side = .ok .resetDecoder ∧
    decode 6 0x00020005#32 [0x12#8, 0x34#8, 0#8, 0#8, 0#8, 0#8] =
      .ok (.startEncode 2 [0x12#8, 0x34#8, 0#8, 0#8, 0#8, 0#8]) ∧
    decode 6 0x012C0005#32 [0#8, 0#8, 0#8, 0#8, 0#8, 0#8] =
      .ok (.startEncode 300 [0#8, 0#8, 0#8, 0#8, 0#8, 0#8]) ∧
    decode 6 0x012C0005#32 [1#8, 2#8, 3#8, 4#8, 5#8, 6#8] =
      .ok (.startEncode 300 [1#8, 2#8, 3#8, 4#8, 5#8, 6#8]) ∧
    decode 6 0x00000014#32 side = .error .strayArgument ∧
    decode 6 0x00000006#32 side = .error .reservedOp ∧
    decode 6 0x00010001#32 side = .error .strayLength

/-! ## The step -/

/-- 42_events_and_ports.md R164: a bad configuration is refused as a whole; otherwise a presented word is
checked, and the step is the operation it decodes to, on the state without that word. -/
def Obligations.StepPerformsDecodedOperation : Prop :=
  ∀ s : State,
    (¬ paramsValid s.params → step s = .refused .badConfig) ∧
    ∀ (w : OpWord) (side : List Byte) (rest : List Input), paramsValid s.params →
      s.inputs = .word w side :: rest →
      (∀ i, decode s.params.payloadCap w side = .ok i → step s = exec i { s with inputs := rest }) ∧
      (∀ e, decode s.params.payloadCap w side = .error e → step s = .refused .reservedWord)

/-- The model's choice (log 2), from 42_events_and_ports.md R162's "no input" case: with nothing
presented a step is NOP. -/
def Obligations.StepWithoutInputIsNop : Prop :=
  ∀ s : State, operable s → s.inputs = [] → step s = .next { s with outReady := false }

/-- 30_encoding.md R93: the second half of `lbtick` is `rx <s.tx>`. -/
def Obligations.LoopbackSampleReadsTheLine : Prop :=
  ∀ (s : State) (rest : List Input), operable s → s.inputs = .loopRx :: rest →
    ∃ t, step s = .next t ∧ exec (.rxSample s.enc.tx) { s with inputs := rest } = .next t

/-! ## The clocked block -/

/-- 42_events_and_ports.md R170, 70_reset_and_hazards.md R200: a cycle with `rst == 1` gives every state
element its power-on value, whatever the state held and whatever the other inputs are. -/
def Obligations.RstCycleAppliesPowerOnReset : Prop :=
  ∀ (s : State) (ports : PortsIn) (rest : List Input), paramsValid s.params → ports.rst = true →
    s.inputs = .cycle ports :: rest →
    step s = .next {
      params := s.params
      enc := {
        buf := [], bit := 0#3, byte := 0, total := 0, active := false, phase := 0, vclk := true
        tx := false }
      dec := {
        buf := [], bit := 0#3, byte := 0, total := s.params.frameCap, active := false
        state := .notSynchronized, shift := 0x0000#16, elapsed := 0, prevEdge := .none }
      det := { rxPrev := false, rxSeen := false }
      frameReadyQ := false
      outReady := false
      inputs := rest }

/-- 10_state.md R45: the reset state of the block built with any parameters, every byte of both buffers
0x00. -/
def Obligations.PowerOnValues : Prop :=
  ∀ p : Params,
    (∀ i, (State.powerOn p).enc.buf.read i = 0x00#8 ∧ (State.powerOn p).dec.buf.read i = 0x00#8) ∧
    State.powerOn p =
      { params := p
        enc := {
          buf := (State.powerOn p).enc.buf, bit := 0#3, byte := 0, total := 0, active := false
          phase := 0, vclk := true, tx := false }
        dec := {
          buf := (State.powerOn p).dec.buf, bit := 0#3, byte := 0, total := p.frameCap
          active := false, state := .notSynchronized, shift := 0x0000#16, elapsed := 0
          prevEdge := .none }
        det := { rxPrev := false, rxSeen := false }
        frameReadyQ := false
        outReady := false
        inputs := [] }

/-- 42_events_and_ports.md R166, R167: the operations of one cycle are performed in their order, each on
the state left by the one before, and `frame_ready_q` says whether one of them notified. -/
def Obligations.ClockCycleOrder : Prop :=
  ∀ (s a b c d : State) (ports : PortsIn) (rest : List Input),
    s.inputs = .cycle ports :: rest → ports.rst = false →
    exec (if ports.tick = true then .tick else .nop) { s with inputs := rest } = .next a →
    exec (.rxSample ports.rx) a = .next b →
    exec (if ports.start = true then .startEncode ports.startLen
        ((List.range (s.params.frameCap - 2)).map fun i =>
          BitVec.ofNat 8 (ports.startPayload / 2 ^ (8 * i))) else .nop) b = .next c →
    exec (if ports.resetDecoder = true then .resetDecoder else .nop) c = .next d →
    step s = .next { d with
      frameReadyQ := a.outReady || b.outReady, outReady := a.outReady || b.outReady }

/-- 70_reset_and_hazards.md R218: "the block accepts every input in every cycle": from a state that holds
only reachable values, every clock cycle completes. -/
def Obligations.EveryClockCycleCompletes : Prop :=
  ∀ (s : State) (ports : PortsIn) (rest : List Input), coreInv s →
    s.inputs = .cycle ports :: rest ∨ s.inputs = .loopCycle ports :: rest →
    ∃ t, step s = .next t ∧ coreInv t ∧ t.inputs = rest

/-- 10_state.md R39, 42_events_and_ports.md R167: `frame_ready` is a one-cycle pulse: the cycle after one
that set it does not set it again. -/
def Obligations.FrameReadyIsAOneCyclePulse : Prop :=
  ∀ (s t u : State) (ports₁ ports₂ : PortsIn) (rest : List Input),
    s.inputs = .cycle ports₁ :: .cycle ports₂ :: rest → step s = .next t →
    t.frameReadyQ = true → step t = .next u → u.frameReadyQ = false

/-- 42_events_and_ports.md R166: "after a cycle with `reset_decoder == 1` the decoder is certainly in
NotSynchronized and idle". -/
def Obligations.ResetDecoderWinsTheCycle : Prop :=
  ∀ (s : State) (ports : PortsIn) (rest : List Input), coreInv s →
    s.inputs = .cycle ports :: rest → ports.resetDecoder = true →
    ∃ t, step s = .next t ∧ t.dec.state = .notSynchronized ∧ t.dec.active = false ∧
      t.dec.prevEdge = .none ∧ t.dec.elapsed = 0

/-- 42_events_and_ports.md R168: the status outputs are the register values at the start of the cycle. -/
def Obligations.StatusOutputsShowRegisters : Prop :=
  ∀ (s : State) (addr : Nat),
    (portsOut s addr).tx = s.enc.tx ∧ (portsOut s addr).encBusy = s.enc.active ∧
    (portsOut s addr).rxCount = s.dec.byte ∧ (portsOut s addr).frameReady = s.frameReadyQ ∧
    (portsOut s addr).decState =
      match s.dec.state with
      | .notSynchronized => 0b00#2
      | .bitSynchronized => 0b01#2
      | .dataSynchronized => 0b10#2
      | .dataReady => 0b11#2

/-- 42_events_and_ports.md R169: the read port returns the buffer's byte, and 0x00 for an index of `C` or
more. -/
def Obligations.ReadPortReturnsTheBufferByte : Prop :=
  ∀ (s : State) (addr : Nat),
    (addr < s.params.frameCap → (portsOut s addr).rdData = s.dec.buf.read addr) ∧
    (s.params.frameCap ≤ addr → (portsOut s addr).rdData = 0x00#8)

/-- 42_events_and_ports.md R174: with `tx` wired to `rx`, a cycle samples the level `tx` has at the
cycle's start, before that cycle's TICK. -/
def Obligations.LoopbackCycleSamplesTx : Prop :=
  ∀ (s : State) (ports : PortsIn) (rest : List Input), s.inputs = .loopCycle ports :: rest →
    step s = step { s with inputs := .cycle { ports with rx := s.enc.tx } :: rest }

/-! ## Bits and codes -/

/-- 20_memory.md R65: `wire_to_byte` keeps the bits under MSB_FIRST and reverses them under LSB_FIRST, and
gives back the byte that the encoder sends as the wire sequence. -/
def Obligations.WireToByteInvertsTheWireOrder : Prop :=
  (∀ v : Byte, wireToByte .msbFirst v = v) ∧
  (∀ (v : Byte) (i : Nat), i < 8 → (wireToByte .lsbFirst v).getLsbD i = v.getLsbD (7 - i)) ∧
  ∀ (o : BitOrder) (b v : Byte),
    (∀ k : BitVec 3, v.getLsbD (7 - k.toNat) = wirebit o b k) → wireToByte o v = b

/-- 20_memory.md R66: under either bit order, the two sync bytes go on the wire as `SYNC`, bit 15 first. -/
def Obligations.SyncFieldOnTheWire : Prop :=
  ∀ (p : Params) (k : BitVec 3),
    wirebit p.order (syncByte0 p) k = p.sync.getLsbD (15 - k.toNat) ∧
    wirebit p.order (syncByte1 p) k = p.sync.getLsbD (7 - k.toNat)

/-- 30_encoding.md R80, R81: the codes of the enumerations; the edge code 0b11 is refused. -/
def Obligations.EnumerationCodes : Prop :=
  decodeStateCode .notSynchronized = 0b00#2 ∧ decodeStateCode .bitSynchronized = 0b01#2 ∧
  decodeStateCode .dataSynchronized = 0b10#2 ∧ decodeStateCode .dataReady = 0b11#2 ∧
  (∀ x : DecodeState, decodeStateOfCode (decodeStateCode x) = x) ∧
  (∀ c : BitVec 2, decodeStateCode (decodeStateOfCode c) = c) ∧
  (∀ e : Edge, edgeOfCode (edgeCode e) = .ok e) ∧
  edgeCode .none = 0b00#2 ∧ edgeCode .rising = 0b01#2 ∧ edgeCode .falling = 0b10#2 ∧
  edgeOfCode 0b11#2 = .error .unreachableValue

/-! ## Invariants -/

/-- The invariants hold right after power-on reset of a block with valid parameters, and so at
`State.reset`. The buffers' canonical form is the model's choice (log 12). -/
def Obligations.PowerOnMeetsTheInvariants : Prop :=
  (∀ p : Params, paramsValid p →
    blockInv (State.powerOn p) ∧ encoderOk (State.powerOn p) ∧ receivedFrameOk (State.powerOn p)) ∧
  blockInv State.reset

/-- 10_state.md R43, R44: every step, event or clock cycle, keeps the session invariants, the decoder
invariants, the registers' ranges, and the buffers' form (log 12) and size. -/
def Obligations.StepKeepsTheInvariant : Prop :=
  ∀ s t : State, blockInv s → step s = .next t → blockInv t

/-- 10_state.md R27, 40_encoder.md R105, R106: every step keeps the encoder's invariant: the virtual clock
follows the phase, a session ends on a byte boundary, and an active session's frame begins with the
sync field. -/
def Obligations.StepKeepsTheEncoderInvariant : Prop :=
  ∀ s t : State, blockInv s → encoderOk s → step s = .next t → encoderOk t

/-- 70_reset_and_hazards.md R213, 41_decoder.md R136 (d): every step keeps what `DecBuf` shows of a frame:
the sync bytes and the zeros from the cursor on, and, where the step stays in the frame, every bit before
the old cursor. -/
def Obligations.StepKeepsTheReceivedFrame : Prop :=
  ∀ s t : State, blockInv s → receivedFrameOk s → step s = .next t →
    receivedFrameOk t ∧ extractedBitsKept s t

/-! ## Headline results -/

/-- 40_encoder.md R108: the line at every tick after a START_ENCODE. Before tick `N/2` it is as it was;
from tick `j*N + N/2` up to tick `(j+1)*N` it is the complement of frame bit `j`; from tick `(j+1)*N` up to
the next mid-bit tick, and after the last bit for good (R106), it is frame bit `j`; and the session is
active exactly before tick `8*enc_total*N`. -/
def Obligations.EncoderLineTiming : Prop :=
  ∀ (s t : State) (len : Nat) (payload : List Byte), operable s →
    exec (.startEncode len payload) s = .next t →
    t.enc.total = min len (s.params.frameCap - 2) + 2 ∧
    ∀ n, ∃ u, runOps (List.replicate n .tick) t = .next u ∧
      (n < s.params.ticksPerBit / 2 → u.enc.tx = s.enc.tx) ∧
      (∀ j, j < 8 * t.enc.total →
        (j * s.params.ticksPerBit + s.params.ticksPerBit / 2 ≤ n → n < (j + 1) * s.params.ticksPerBit →
          u.enc.tx = !frameBit s.params payload j) ∧
        ((j + 1) * s.params.ticksPerBit ≤ n →
          n < (j + 1) * s.params.ticksPerBit + s.params.ticksPerBit / 2 ∨ j + 1 = 8 * t.enc.total →
          u.enc.tx = frameBit s.params payload j)) ∧
      (u.enc.active = true ↔ n < 8 * t.enc.total * s.params.ticksPerBit)

/-- 41_decoder.md R147 (b), (d): an idle decoder fed by the loopback locks at tick `2N` with the first
two bits of `SYNC`, matches at tick `16N`, and neither before. -/
def Obligations.LoopbackLocksAndMatches : Prop :=
  ∀ (s t : State) (len : Nat) (payload : List Byte), coreInv s →
    s.dec.state = .notSynchronized → s.dec.active = false →
    (s.det.rxSeen = true → s.det.rxPrev = s.enc.tx) →
    exec (.startEncode len payload) s = .next t →
    (∀ n, n < 2 * s.params.ticksPerBit →
      ∃ u, loopback n t = some (u, 0) ∧ u.dec.state = .notSynchronized) ∧
    (∃ u, loopback (2 * s.params.ticksPerBit) t = some (u, 0) ∧ u.dec.state = .bitSynchronized ∧
      u.dec.shift = (s.params.sync.extractLsb' 14 2).setWidth 16) ∧
    (∀ n, 2 * s.params.ticksPerBit ≤ n → n < 16 * s.params.ticksPerBit →
      ∃ u, loopback n t = some (u, 0) ∧ u.dec.state = .bitSynchronized) ∧
    (∃ u, loopback (16 * s.params.ticksPerBit) t = some (u, 0) ∧
      u.dec.state = .dataSynchronized ∧ u.dec.shift = s.params.sync)

/-- 41_decoder.md R147 (f), (g): the round trip. A frame started by START_ENCODE and fed back to an idle
decoder completes at the tick the rule names and not before, with the payload in `DecBuf`, zeros behind
it, `dec_byte = 2 + L`, and exactly one notification. -/
def Obligations.LoopbackRoundTrip : Prop :=
  ∀ (s t : State) (len L n : Nat) (payload : List Byte), coreInv s →
    s.dec.state = .notSynchronized → s.dec.active = false →
    (s.det.rxSeen = true → s.det.rxPrev = s.enc.tx) →
    exec (.startEncode len payload) s = .next t →
    L = min len s.params.payloadCap →
    n = (if L = s.params.payloadCap then 8 * s.params.frameCap * s.params.ticksPerBit
      else (16 + 8 * L) * s.params.ticksPerBit + s.params.watchdogTicks + 1) →
    (∀ k, k < n → ∃ v, loopback k t = some (v, 0)) ∧
    ∃ u, loopback n t = some (u, 1) ∧ u.dec.state = .dataReady ∧ u.dec.byte = 2 + L ∧
      ∀ i, i < s.params.frameCap → u.dec.buf.read i =
        if i = 0 then syncByte0 s.params
        else if i = 1 then syncByte1 s.params
        else if i < 2 + L then payload.getD (i - 2) 0x00#8
        else 0x00#8
end

