-- ==== Sys2Proof/Laws/Memory.lean ====
section
/-! SUPPORT. The laws of a frame buffer: a read after a write, that a write leaves every other byte
alone, and that every buffer operation keeps the canonical form and the buffer's size. -/

namespace Sys2Proof.Machine

@[simp] theorem Memory.read_nil (i : Nat) : Memory.read [] i = resetByte := rfl

theorem Memory.read_cons (c : Host.Cell) (m : Memory) (i : Nat) :
    Memory.read (c :: m) i = if c.1 = i then c.2 else Memory.read m i := rfl

/-- An index that is not listed reads as the reset byte. -/
theorem Memory.read_of_unlisted {m : Memory} {i : Nat} (h : ∀ c ∈ m, c.1 ≠ i) :
    Memory.read m i = resetByte := by
  induction m with
  | nil => rfl
  | cons c m ih =>
    rw [Memory.read_cons, if_neg (h c (by simp))]
    exact ih fun x hx => h x (by simp [hx])

theorem Memory.read_filter_same (m : Memory) (i : Nat) :
    Memory.read (m.filter fun c => c.1 != i) i = resetByte :=
  Memory.read_of_unlisted fun c hc => by simpa using (List.mem_filter.mp hc).2

theorem Memory.read_filter_other (m : Memory) {i j : Nat} (h : j ≠ i) :
    Memory.read (m.filter fun c => c.1 != i) j = Memory.read m j := by
  induction m with
  | nil => rfl
  | cons c m ih =>
    by_cases hc : c.1 = i
    · simp [hc, Memory.read_cons, ih, Ne.symm h]
    · simp [hc, Memory.read_cons, ih]

theorem Memory.read_insertCell_same {m : Memory} {i : Nat} (v : Byte) (h : ∀ c ∈ m, c.1 ≠ i) :
    Memory.read (Memory.insertCell m i v) i = v := by
  induction m with
  | nil => simp [Memory.insertCell, Memory.read_cons]
  | cons c m ih =>
    have hc : c.1 ≠ i := h c (by simp)
    unfold Memory.insertCell
    split
    · simp [Memory.read_cons]
    · rw [Memory.read_cons, if_neg hc]
      exact ih fun x hx => h x (by simp [hx])

theorem Memory.read_insertCell_other (m : Memory) {i j : Nat} (v : Byte) (h : j ≠ i) :
    Memory.read (Memory.insertCell m i v) j = Memory.read m j := by
  induction m with
  | nil => simp [Memory.insertCell, Memory.read_cons, Ne.symm h]
  | cons c m ih =>
    unfold Memory.insertCell
    split
    · rw [Memory.read_cons, if_neg (Ne.symm h)]
    · rw [Memory.read_cons, Memory.read_cons, ih]

/-- A read after a write to the same index gives the value written. -/
theorem Memory.read_write_same (m : Memory) (i : Nat) (v : Byte) : (m.write i v).read i = v := by
  unfold Memory.write
  split
  · rename_i h
    rw [Memory.read_filter_same, h]
  · exact Memory.read_insertCell_same v fun c hc => by simpa using (List.mem_filter.mp hc).2

/-- A write leaves every other byte alone. -/
theorem Memory.read_write_other (m : Memory) {i j : Nat} (v : Byte) (h : j ≠ i) :
    (m.write i v).read j = m.read j := by
  unfold Memory.write
  split
  · exact Memory.read_filter_other m h
  · rw [Memory.read_insertCell_other _ v h, Memory.read_filter_other m h]

/-- What one write does to every byte. -/
theorem Memory.read_write (m : Memory) (i j : Nat) (v : Byte) :
    (m.write i v).read j = if j = i then v else m.read j := by
  split
  · rename_i h
    rw [h, Memory.read_write_same]
  · rename_i h
    exact Memory.read_write_other m v h

/-- What writing consecutive bytes does to every byte. -/
theorem Memory.read_writeBytes (m : Memory) (i j : Nat) (bs : List Byte) :
    (m.writeBytes i bs).read j =
      if i ≤ j ∧ j < i + bs.length then bs.getD (j - i) resetByte else m.read j := by
  induction bs generalizing m i with
  | nil => simp [Memory.writeBytes]
  | cons b bs ih =>
    rw [Memory.writeBytes, ih, Memory.read_write]
    by_cases hj : j = i
    · subst hj
      simp
    · by_cases h : i + 1 ≤ j ∧ j < i + 1 + bs.length
      · obtain ⟨k, rfl⟩ : ∃ k, j = i + 1 + k := ⟨j - (i + 1), by omega⟩
        have e1 : i + 1 + k - (i + 1) = k := by omega
        have e2 : i + 1 + k - i = k + 1 := by omega
        rw [if_pos h, if_pos (by simp only [List.length_cons]; omega), e1, e2, List.getD_cons_succ]
      · rw [if_neg h, if_neg hj, if_neg (by simp only [List.length_cons]; omega)]

theorem Memory.mem_insertCell {m : Memory} {i : Nat} {v : Byte} {x : Host.Cell} :
    x ∈ Memory.insertCell m i v ↔ x = (i, v) ∨ x ∈ m := by
  induction m with
  | nil => simp [Memory.insertCell]
  | cons c m ih =>
    unfold Memory.insertCell
    split
    · simp
    · simp [ih]; tauto

/-- Every cell after a write is an old cell of another index, or the cell written. -/
theorem Memory.mem_write {m : Memory} {i : Nat} {v : Byte} {x : Host.Cell} (h : x ∈ m.write i v) :
    (x ∈ m ∧ x.1 ≠ i) ∨ (x = (i, v) ∧ v ≠ resetByte) := by
  unfold Memory.write at h
  split at h
  · exact .inl (by simpa using List.mem_filter.mp h)
  · rename_i hv
    rcases Memory.mem_insertCell.mp h with h | h
    · exact .inr ⟨h, hv⟩
    · exact .inl (by simpa using List.mem_filter.mp h)

theorem Memory.insertCell_rising {m : Memory} {i : Nat} {v : Byte}
    (h : m.Pairwise fun a b => a.1 < b.1) (hi : ∀ c ∈ m, c.1 ≠ i) :
    (Memory.insertCell m i v).Pairwise fun a b => a.1 < b.1 := by
  induction m with
  | nil => simp [Memory.insertCell]
  | cons c m ih =>
    have hc : c.1 ≠ i := hi c (by simp)
    rw [List.pairwise_cons] at h
    unfold Memory.insertCell
    split
    · rename_i hlt
      refine List.pairwise_cons.mpr ⟨fun x hx => ?_, List.pairwise_cons.mpr h⟩
      rcases List.mem_cons.mp hx with rfl | hx
      · exact hlt
      · exact Nat.lt_trans hlt (h.1 x hx)
    · rename_i hlt
      refine List.pairwise_cons.mpr
        ⟨fun x hx => ?_, ih h.2 fun x hx => hi x (by simp [hx])⟩
      rcases Memory.mem_insertCell.mp hx with rfl | hx
      · exact Nat.lt_of_le_of_ne (Nat.le_of_not_lt hlt) hc
      · exact h.1 x hx

/-- A write keeps the canonical form. -/
theorem Memory.write_wf {m : Memory} (i : Nat) (v : Byte) (h : m.wf) : (m.write i v).wf := by
  refine ⟨?_, fun x hx => ?_⟩
  · unfold Memory.write
    split
    · exact h.1.filter _
    · exact Memory.insertCell_rising (h.1.filter _) fun c hc => by
        simpa using (List.mem_filter.mp hc).2
  · rcases Memory.mem_write hx with ⟨hm, -⟩ | ⟨rfl, hv⟩
    · exact h.2 x hm
    · exact hv

/-- A write to a byte that exists lists only bytes that exist. -/
theorem Memory.write_below {m : Memory} {i c : Nat} (v : Byte) (h : m.below c) (hi : i < c) :
    (m.write i v).below c := by
  intro x hx
  rcases Memory.mem_write hx with ⟨hm, -⟩ | ⟨rfl, -⟩
  · exact h x hm
  · exact hi

/-- Writing consecutive bytes keeps the canonical form. -/
theorem Memory.writeBytes_wf {m : Memory} (i : Nat) (bs : List Byte) (h : m.wf) :
    (m.writeBytes i bs).wf := by
  induction bs generalizing m i with
  | nil => exact h
  | cons b bs ih => exact ih (i + 1) (Memory.write_wf i b h)

/-- Writing consecutive bytes that exist lists only bytes that exist. -/
theorem Memory.writeBytes_below {m : Memory} {i c : Nat} (bs : List Byte) (h : m.below c)
    (hi : i + bs.length ≤ c) : (m.writeBytes i bs).below c := by
  induction bs generalizing m i with
  | nil => exact h
  | cons b bs ih =>
    simp only [List.length_cons] at hi
    exact ih (Memory.write_below b h (by omega)) (by omega)

/-- A byte that does not exist reads as the reset byte. -/
theorem Memory.read_of_below {m : Memory} {c i : Nat} (h : m.below c) (hi : c ≤ i) :
    m.read i = resetByte :=
  Memory.read_of_unlisted fun x hx => by have := h x hx; omega

/-- The buffers right after reset are in the canonical form. -/
theorem reset_buffers_wf : State.reset.enc.buf.wf ∧ State.reset.dec.buf.wf := by decide

end Sys2Proof.Machine
end

