-- ==== Sys2Proof/Laws/State.lean ====
section
/-! SUPPORT. The state after each single update, field by field: what the update writes, and what it
leaves. Every lemma is true by definition, so that no later proof unfolds a record update. -/

namespace Sys2Proof.Machine

/-! ## beginOp -/

@[simp] theorem beginOp_params (s : State) : (beginOp s).params = s.params := rfl
@[simp] theorem beginOp_enc (s : State) : (beginOp s).enc = s.enc := rfl
@[simp] theorem beginOp_dec (s : State) : (beginOp s).dec = s.dec := rfl
@[simp] theorem beginOp_det (s : State) : (beginOp s).det = s.det := rfl
@[simp] theorem beginOp_frameReadyQ (s : State) : (beginOp s).frameReadyQ = s.frameReadyQ := rfl
@[simp] theorem beginOp_outReady (s : State) : (beginOp s).outReady = false := rfl
@[simp] theorem beginOp_inputs (s : State) : (beginOp s).inputs = s.inputs := rfl

/-! ## notify -/

@[simp] theorem notify_params (s : State) : (notify s).params = s.params := rfl
@[simp] theorem notify_enc (s : State) : (notify s).enc = s.enc := rfl
@[simp] theorem notify_dec (s : State) : (notify s).dec = s.dec := rfl
@[simp] theorem notify_det (s : State) : (notify s).det = s.det := rfl
@[simp] theorem notify_frameReadyQ (s : State) : (notify s).frameReadyQ = s.frameReadyQ := rfl
@[simp] theorem notify_outReady (s : State) : (notify s).outReady = true := rfl
@[simp] theorem notify_inputs (s : State) : (notify s).inputs = s.inputs := rfl

/-! ## complete -/

@[simp] theorem complete_params (s : State) : (complete s).params = s.params := rfl
@[simp] theorem complete_enc (s : State) : (complete s).enc = s.enc := rfl
@[simp] theorem complete_dec_buf (s : State) : (complete s).dec.buf = s.dec.buf := rfl
@[simp] theorem complete_dec_bit (s : State) : (complete s).dec.bit = s.dec.bit := rfl
@[simp] theorem complete_dec_byte (s : State) : (complete s).dec.byte = s.dec.byte := rfl
@[simp] theorem complete_dec_total (s : State) : (complete s).dec.total = s.dec.total := rfl
@[simp] theorem complete_dec_active (s : State) : (complete s).dec.active = false := rfl
@[simp] theorem complete_dec_state (s : State) : (complete s).dec.state = .dataReady := rfl
@[simp] theorem complete_dec_shift (s : State) : (complete s).dec.shift = s.dec.shift := rfl
@[simp] theorem complete_dec_elapsed (s : State) : (complete s).dec.elapsed = s.dec.elapsed := rfl
@[simp] theorem complete_dec_prevEdge (s : State) : (complete s).dec.prevEdge = .none := rfl
@[simp] theorem complete_det (s : State) : (complete s).det = s.det := rfl
@[simp] theorem complete_frameReadyQ (s : State) : (complete s).frameReadyQ = s.frameReadyQ := rfl
@[simp] theorem complete_outReady (s : State) : (complete s).outReady = true := rfl
@[simp] theorem complete_inputs (s : State) : (complete s).inputs = s.inputs := rfl

/-! ## startEncode -/

@[simp] theorem startEncode_params (len : Nat) (payload : List Byte) (s : State) :
    (startEncode len payload s).params = s.params := rfl
@[simp] theorem startEncode_enc_buf (len : Nat) (payload : List Byte) (s : State) :
    (startEncode len payload s).enc.buf = loadFrame s.params (payload.take (clampLength s.params len)) s.enc.buf := rfl
@[simp] theorem startEncode_enc_bit (len : Nat) (payload : List Byte) (s : State) :
    (startEncode len payload s).enc.bit = 0#3 := rfl
@[simp] theorem startEncode_enc_byte (len : Nat) (payload : List Byte) (s : State) :
    (startEncode len payload s).enc.byte = 0 := rfl
@[simp] theorem startEncode_enc_total (len : Nat) (payload : List Byte) (s : State) :
    (startEncode len payload s).enc.total = clampLength s.params len + 2 := rfl
@[simp] theorem startEncode_enc_active (len : Nat) (payload : List Byte) (s : State) :
    (startEncode len payload s).enc.active = true := rfl
@[simp] theorem startEncode_enc_phase (len : Nat) (payload : List Byte) (s : State) :
    (startEncode len payload s).enc.phase = 0 := rfl
@[simp] theorem startEncode_enc_vclk (len : Nat) (payload : List Byte) (s : State) :
    (startEncode len payload s).enc.vclk = Config.vclk0 := rfl
@[simp] theorem startEncode_enc_tx (len : Nat) (payload : List Byte) (s : State) :
    (startEncode len payload s).enc.tx = s.enc.tx := rfl
@[simp] theorem startEncode_dec (len : Nat) (payload : List Byte) (s : State) :
    (startEncode len payload s).dec = s.dec := rfl
@[simp] theorem startEncode_det (len : Nat) (payload : List Byte) (s : State) :
    (startEncode len payload s).det = s.det := rfl
@[simp] theorem startEncode_frameReadyQ (len : Nat) (payload : List Byte) (s : State) :
    (startEncode len payload s).frameReadyQ = s.frameReadyQ := rfl
@[simp] theorem startEncode_outReady (len : Nat) (payload : List Byte) (s : State) :
    (startEncode len payload s).outReady = s.outReady := rfl
@[simp] theorem startEncode_inputs (len : Nat) (payload : List Byte) (s : State) :
    (startEncode len payload s).inputs = s.inputs := rfl

/-! ## writeLine -/

@[simp] theorem writeLine_params (s : State) : (writeLine s).params = s.params := rfl
@[simp] theorem writeLine_enc_buf (s : State) : (writeLine s).enc.buf = s.enc.buf := rfl
@[simp] theorem writeLine_enc_bit (s : State) : (writeLine s).enc.bit = s.enc.bit := rfl
@[simp] theorem writeLine_enc_byte (s : State) : (writeLine s).enc.byte = s.enc.byte := rfl
@[simp] theorem writeLine_enc_total (s : State) : (writeLine s).enc.total = s.enc.total := rfl
@[simp] theorem writeLine_enc_active (s : State) : (writeLine s).enc.active = s.enc.active := rfl
@[simp] theorem writeLine_enc_phase (s : State) : (writeLine s).enc.phase = s.enc.phase := rfl
@[simp] theorem writeLine_enc_vclk (s : State) : (writeLine s).enc.vclk = !s.enc.vclk := rfl
@[simp] theorem writeLine_enc_tx (s : State) :
    (writeLine s).enc.tx = (currentBit s ^^ s.enc.vclk) := rfl
@[simp] theorem writeLine_dec (s : State) : (writeLine s).dec = s.dec := rfl
@[simp] theorem writeLine_det (s : State) : (writeLine s).det = s.det := rfl
@[simp] theorem writeLine_frameReadyQ (s : State) : (writeLine s).frameReadyQ = s.frameReadyQ := rfl
@[simp] theorem writeLine_outReady (s : State) : (writeLine s).outReady = s.outReady := rfl
@[simp] theorem writeLine_inputs (s : State) : (writeLine s).inputs = s.inputs := rfl

/-! ## setPhase -/

@[simp] theorem setPhase_params (ph : Nat) (s : State) : (setPhase ph s).params = s.params := rfl
@[simp] theorem setPhase_enc_buf (ph : Nat) (s : State) : (setPhase ph s).enc.buf = s.enc.buf := rfl
@[simp] theorem setPhase_enc_bit (ph : Nat) (s : State) : (setPhase ph s).enc.bit = s.enc.bit := rfl
@[simp] theorem setPhase_enc_byte (ph : Nat) (s : State) :
    (setPhase ph s).enc.byte = s.enc.byte := rfl
@[simp] theorem setPhase_enc_total (ph : Nat) (s : State) :
    (setPhase ph s).enc.total = s.enc.total := rfl
@[simp] theorem setPhase_enc_active (ph : Nat) (s : State) :
    (setPhase ph s).enc.active = s.enc.active := rfl
@[simp] theorem setPhase_enc_phase (ph : Nat) (s : State) : (setPhase ph s).enc.phase = ph := rfl
@[simp] theorem setPhase_enc_vclk (ph : Nat) (s : State) :
    (setPhase ph s).enc.vclk = s.enc.vclk := rfl
@[simp] theorem setPhase_enc_tx (ph : Nat) (s : State) : (setPhase ph s).enc.tx = s.enc.tx := rfl
@[simp] theorem setPhase_dec (ph : Nat) (s : State) : (setPhase ph s).dec = s.dec := rfl
@[simp] theorem setPhase_det (ph : Nat) (s : State) : (setPhase ph s).det = s.det := rfl
@[simp] theorem setPhase_frameReadyQ (ph : Nat) (s : State) :
    (setPhase ph s).frameReadyQ = s.frameReadyQ := rfl
@[simp] theorem setPhase_outReady (ph : Nat) (s : State) :
    (setPhase ph s).outReady = s.outReady := rfl
@[simp] theorem setPhase_inputs (ph : Nat) (s : State) : (setPhase ph s).inputs = s.inputs := rfl

/-! ## recordEdge -/

@[simp] theorem recordEdge_params (d : Dir) (s : State) : (recordEdge d s).params = s.params := rfl
@[simp] theorem recordEdge_enc (d : Dir) (s : State) : (recordEdge d s).enc = s.enc := rfl
@[simp] theorem recordEdge_dec_buf (d : Dir) (s : State) :
    (recordEdge d s).dec.buf = s.dec.buf := rfl
@[simp] theorem recordEdge_dec_bit (d : Dir) (s : State) :
    (recordEdge d s).dec.bit = s.dec.bit := rfl
@[simp] theorem recordEdge_dec_byte (d : Dir) (s : State) :
    (recordEdge d s).dec.byte = s.dec.byte := rfl
@[simp] theorem recordEdge_dec_total (d : Dir) (s : State) :
    (recordEdge d s).dec.total = s.dec.total := rfl
@[simp] theorem recordEdge_dec_active (d : Dir) (s : State) :
    (recordEdge d s).dec.active = s.dec.active := rfl
@[simp] theorem recordEdge_dec_state (d : Dir) (s : State) :
    (recordEdge d s).dec.state = s.dec.state := rfl
@[simp] theorem recordEdge_dec_shift (d : Dir) (s : State) :
    (recordEdge d s).dec.shift = s.dec.shift := rfl
@[simp] theorem recordEdge_dec_elapsed (d : Dir) (s : State) :
    (recordEdge d s).dec.elapsed = s.dec.elapsed := rfl
@[simp] theorem recordEdge_dec_prevEdge (d : Dir) (s : State) :
    (recordEdge d s).dec.prevEdge = edgeOfDir d := rfl
@[simp] theorem recordEdge_det (d : Dir) (s : State) : (recordEdge d s).det = s.det := rfl
@[simp] theorem recordEdge_frameReadyQ (d : Dir) (s : State) :
    (recordEdge d s).frameReadyQ = s.frameReadyQ := rfl
@[simp] theorem recordEdge_outReady (d : Dir) (s : State) :
    (recordEdge d s).outReady = s.outReady := rfl
@[simp] theorem recordEdge_inputs (d : Dir) (s : State) : (recordEdge d s).inputs = s.inputs := rfl

/-! ## arm -/

@[simp] theorem arm_params (s : State) : (arm s).params = s.params := rfl
@[simp] theorem arm_enc (s : State) : (arm s).enc = s.enc := rfl
@[simp] theorem arm_dec_buf (s : State) : (arm s).dec.buf = s.dec.buf := rfl
@[simp] theorem arm_dec_bit (s : State) : (arm s).dec.bit = s.dec.bit := rfl
@[simp] theorem arm_dec_byte (s : State) : (arm s).dec.byte = s.dec.byte := rfl
@[simp] theorem arm_dec_total (s : State) : (arm s).dec.total = s.dec.total := rfl
@[simp] theorem arm_dec_active (s : State) : (arm s).dec.active = true := rfl
@[simp] theorem arm_dec_state (s : State) : (arm s).dec.state = s.dec.state := rfl
@[simp] theorem arm_dec_shift (s : State) : (arm s).dec.shift = s.dec.shift := rfl
@[simp] theorem arm_dec_elapsed (s : State) : (arm s).dec.elapsed = 0 := rfl
@[simp] theorem arm_dec_prevEdge (s : State) : (arm s).dec.prevEdge = s.dec.prevEdge := rfl
@[simp] theorem arm_det (s : State) : (arm s).det = s.det := rfl
@[simp] theorem arm_frameReadyQ (s : State) : (arm s).frameReadyQ = s.frameReadyQ := rfl
@[simp] theorem arm_outReady (s : State) : (arm s).outReady = s.outReady := rfl
@[simp] theorem arm_inputs (s : State) : (arm s).inputs = s.inputs := rfl

/-! ## lock -/

@[simp] theorem lock_params (d : Dir) (s : State) : (lock d s).params = s.params := rfl
@[simp] theorem lock_enc (d : Dir) (s : State) : (lock d s).enc = s.enc := rfl
@[simp] theorem lock_dec_buf (d : Dir) (s : State) : (lock d s).dec.buf = s.dec.buf := rfl
@[simp] theorem lock_dec_bit (d : Dir) (s : State) : (lock d s).dec.bit = s.dec.bit := rfl
@[simp] theorem lock_dec_byte (d : Dir) (s : State) : (lock d s).dec.byte = s.dec.byte := rfl
@[simp] theorem lock_dec_total (d : Dir) (s : State) : (lock d s).dec.total = s.dec.total := rfl
@[simp] theorem lock_dec_active (d : Dir) (s : State) : (lock d s).dec.active = s.dec.active := rfl
@[simp] theorem lock_dec_state (d : Dir) (s : State) :
    (lock d s).dec.state = .bitSynchronized := rfl
@[simp] theorem lock_dec_shift (d : Dir) (s : State) :
    (lock d s).dec.shift = lockSeed (bitval d) := rfl
@[simp] theorem lock_dec_elapsed (d : Dir) (s : State) :
    (lock d s).dec.elapsed = s.dec.elapsed := rfl
@[simp] theorem lock_dec_prevEdge (d : Dir) (s : State) :
    (lock d s).dec.prevEdge = s.dec.prevEdge := rfl
@[simp] theorem lock_det (d : Dir) (s : State) : (lock d s).det = s.det := rfl
@[simp] theorem lock_frameReadyQ (d : Dir) (s : State) :
    (lock d s).frameReadyQ = s.frameReadyQ := rfl
@[simp] theorem lock_outReady (d : Dir) (s : State) : (lock d s).outReady = s.outReady := rfl
@[simp] theorem lock_inputs (d : Dir) (s : State) : (lock d s).inputs = s.inputs := rfl

/-! ## restartCounter -/

@[simp] theorem restartCounter_params (s : State) : (restartCounter s).params = s.params := rfl
@[simp] theorem restartCounter_enc (s : State) : (restartCounter s).enc = s.enc := rfl
@[simp] theorem restartCounter_dec_buf (s : State) : (restartCounter s).dec.buf = s.dec.buf := rfl
@[simp] theorem restartCounter_dec_bit (s : State) : (restartCounter s).dec.bit = s.dec.bit := rfl
@[simp] theorem restartCounter_dec_byte (s : State) :
    (restartCounter s).dec.byte = s.dec.byte := rfl
@[simp] theorem restartCounter_dec_total (s : State) :
    (restartCounter s).dec.total = s.dec.total := rfl
@[simp] theorem restartCounter_dec_active (s : State) :
    (restartCounter s).dec.active = s.dec.active := rfl
@[simp] theorem restartCounter_dec_state (s : State) :
    (restartCounter s).dec.state = s.dec.state := rfl
@[simp] theorem restartCounter_dec_shift (s : State) :
    (restartCounter s).dec.shift = s.dec.shift := rfl
@[simp] theorem restartCounter_dec_elapsed (s : State) : (restartCounter s).dec.elapsed = 0 := rfl
@[simp] theorem restartCounter_dec_prevEdge (s : State) :
    (restartCounter s).dec.prevEdge = s.dec.prevEdge := rfl
@[simp] theorem restartCounter_det (s : State) : (restartCounter s).det = s.det := rfl
@[simp] theorem restartCounter_frameReadyQ (s : State) :
    (restartCounter s).frameReadyQ = s.frameReadyQ := rfl
@[simp] theorem restartCounter_outReady (s : State) :
    (restartCounter s).outReady = s.outReady := rfl
@[simp] theorem restartCounter_inputs (s : State) : (restartCounter s).inputs = s.inputs := rfl

/-! ## shiftBit -/

@[simp] theorem shiftBit_params (d : Dir) (s : State) : (shiftBit d s).params = s.params := rfl
@[simp] theorem shiftBit_enc (d : Dir) (s : State) : (shiftBit d s).enc = s.enc := rfl
@[simp] theorem shiftBit_dec_buf (d : Dir) (s : State) : (shiftBit d s).dec.buf = s.dec.buf := rfl
@[simp] theorem shiftBit_dec_bit (d : Dir) (s : State) : (shiftBit d s).dec.bit = s.dec.bit := rfl
@[simp] theorem shiftBit_dec_byte (d : Dir) (s : State) :
    (shiftBit d s).dec.byte = s.dec.byte := rfl
@[simp] theorem shiftBit_dec_total (d : Dir) (s : State) :
    (shiftBit d s).dec.total = s.dec.total := rfl
@[simp] theorem shiftBit_dec_active (d : Dir) (s : State) :
    (shiftBit d s).dec.active = s.dec.active := rfl
@[simp] theorem shiftBit_dec_state (d : Dir) (s : State) :
    (shiftBit d s).dec.state = s.dec.state := rfl
@[simp] theorem shiftBit_dec_shift (d : Dir) (s : State) :
    (shiftBit d s).dec.shift = shiftIn s.dec.shift (bitval d) := rfl
@[simp] theorem shiftBit_dec_elapsed (d : Dir) (s : State) : (shiftBit d s).dec.elapsed = 0 := rfl
@[simp] theorem shiftBit_dec_prevEdge (d : Dir) (s : State) :
    (shiftBit d s).dec.prevEdge = s.dec.prevEdge := rfl
@[simp] theorem shiftBit_det (d : Dir) (s : State) : (shiftBit d s).det = s.det := rfl
@[simp] theorem shiftBit_frameReadyQ (d : Dir) (s : State) :
    (shiftBit d s).frameReadyQ = s.frameReadyQ := rfl
@[simp] theorem shiftBit_outReady (d : Dir) (s : State) :
    (shiftBit d s).outReady = s.outReady := rfl
@[simp] theorem shiftBit_inputs (d : Dir) (s : State) : (shiftBit d s).inputs = s.inputs := rfl

/-! ## syncMatch -/

@[simp] theorem syncMatch_params (s : State) : (syncMatch s).params = s.params := rfl
@[simp] theorem syncMatch_enc (s : State) : (syncMatch s).enc = s.enc := rfl
@[simp] theorem syncMatch_dec_buf (s : State) :
    (syncMatch s).dec.buf = storeMatch s.params s.dec.shift s.dec.buf := rfl
@[simp] theorem syncMatch_dec_bit (s : State) : (syncMatch s).dec.bit = 0#3 := rfl
@[simp] theorem syncMatch_dec_byte (s : State) : (syncMatch s).dec.byte = 2 := rfl
@[simp] theorem syncMatch_dec_total (s : State) : (syncMatch s).dec.total = s.params.frameCap := rfl
@[simp] theorem syncMatch_dec_active (s : State) : (syncMatch s).dec.active = s.dec.active := rfl
@[simp] theorem syncMatch_dec_state (s : State) : (syncMatch s).dec.state = .dataSynchronized := rfl
@[simp] theorem syncMatch_dec_shift (s : State) : (syncMatch s).dec.shift = s.dec.shift := rfl
@[simp] theorem syncMatch_dec_elapsed (s : State) : (syncMatch s).dec.elapsed = s.dec.elapsed := rfl
@[simp] theorem syncMatch_dec_prevEdge (s : State) :
    (syncMatch s).dec.prevEdge = s.dec.prevEdge := rfl
@[simp] theorem syncMatch_det (s : State) : (syncMatch s).det = s.det := rfl
@[simp] theorem syncMatch_frameReadyQ (s : State) : (syncMatch s).frameReadyQ = s.frameReadyQ := rfl
@[simp] theorem syncMatch_outReady (s : State) : (syncMatch s).outReady = s.outReady := rfl
@[simp] theorem syncMatch_inputs (s : State) : (syncMatch s).inputs = s.inputs := rfl

/-! ## countTick -/

@[simp] theorem countTick_params (s : State) : (countTick s).params = s.params := rfl
@[simp] theorem countTick_enc (s : State) : (countTick s).enc = s.enc := rfl
@[simp] theorem countTick_dec_buf (s : State) : (countTick s).dec.buf = s.dec.buf := rfl
@[simp] theorem countTick_dec_bit (s : State) : (countTick s).dec.bit = s.dec.bit := rfl
@[simp] theorem countTick_dec_byte (s : State) : (countTick s).dec.byte = s.dec.byte := rfl
@[simp] theorem countTick_dec_total (s : State) : (countTick s).dec.total = s.dec.total := rfl
@[simp] theorem countTick_dec_active (s : State) : (countTick s).dec.active = s.dec.active := rfl
@[simp] theorem countTick_dec_state (s : State) : (countTick s).dec.state = s.dec.state := rfl
@[simp] theorem countTick_dec_shift (s : State) : (countTick s).dec.shift = s.dec.shift := rfl
@[simp] theorem countTick_dec_elapsed (s : State) :
    (countTick s).dec.elapsed = satInc s.params s.dec.elapsed := rfl
@[simp] theorem countTick_dec_prevEdge (s : State) :
    (countTick s).dec.prevEdge = s.dec.prevEdge := rfl
@[simp] theorem countTick_det (s : State) : (countTick s).det = s.det := rfl
@[simp] theorem countTick_frameReadyQ (s : State) : (countTick s).frameReadyQ = s.frameReadyQ := rfl
@[simp] theorem countTick_outReady (s : State) : (countTick s).outReady = s.outReady := rfl
@[simp] theorem countTick_inputs (s : State) : (countTick s).inputs = s.inputs := rfl

/-! ## recordLevel -/

@[simp] theorem recordLevel_params (level : Bool) (s : State) :
    (recordLevel level s).params = s.params := rfl
@[simp] theorem recordLevel_enc (level : Bool) (s : State) :
    (recordLevel level s).enc = s.enc := rfl
@[simp] theorem recordLevel_dec (level : Bool) (s : State) :
    (recordLevel level s).dec = s.dec := rfl
@[simp] theorem recordLevel_det_rxPrev (level : Bool) (s : State) :
    (recordLevel level s).det.rxPrev = level := rfl
@[simp] theorem recordLevel_det_rxSeen (level : Bool) (s : State) :
    (recordLevel level s).det.rxSeen = s.det.rxSeen := rfl
@[simp] theorem recordLevel_frameReadyQ (level : Bool) (s : State) :
    (recordLevel level s).frameReadyQ = s.frameReadyQ := rfl
@[simp] theorem recordLevel_outReady (level : Bool) (s : State) :
    (recordLevel level s).outReady = s.outReady := rfl
@[simp] theorem recordLevel_inputs (level : Bool) (s : State) :
    (recordLevel level s).inputs = s.inputs := rfl

/-! ## initDetector -/

@[simp] theorem initDetector_params (level : Bool) (s : State) :
    (initDetector level s).params = s.params := rfl
@[simp] theorem initDetector_enc (level : Bool) (s : State) :
    (initDetector level s).enc = s.enc := rfl
@[simp] theorem initDetector_dec (level : Bool) (s : State) :
    (initDetector level s).dec = s.dec := rfl
@[simp] theorem initDetector_det_rxPrev (level : Bool) (s : State) :
    (initDetector level s).det.rxPrev = level := rfl
@[simp] theorem initDetector_det_rxSeen (level : Bool) (s : State) :
    (initDetector level s).det.rxSeen = true := rfl
@[simp] theorem initDetector_frameReadyQ (level : Bool) (s : State) :
    (initDetector level s).frameReadyQ = s.frameReadyQ := rfl
@[simp] theorem initDetector_outReady (level : Bool) (s : State) :
    (initDetector level s).outReady = s.outReady := rfl
@[simp] theorem initDetector_inputs (level : Bool) (s : State) :
    (initDetector level s).inputs = s.inputs := rfl

/-! ## resetDecoder -/

@[simp] theorem resetDecoder_params (s : State) : (resetDecoder s).params = s.params := rfl
@[simp] theorem resetDecoder_enc (s : State) : (resetDecoder s).enc = s.enc := rfl
@[simp] theorem resetDecoder_dec_buf (s : State) : (resetDecoder s).dec.buf = s.dec.buf := rfl
@[simp] theorem resetDecoder_dec_bit (s : State) : (resetDecoder s).dec.bit = 0#3 := rfl
@[simp] theorem resetDecoder_dec_byte (s : State) : (resetDecoder s).dec.byte = 0 := rfl
@[simp] theorem resetDecoder_dec_total (s : State) :
    (resetDecoder s).dec.total = s.params.frameCap := rfl
@[simp] theorem resetDecoder_dec_active (s : State) : (resetDecoder s).dec.active = false := rfl
@[simp] theorem resetDecoder_dec_state (s : State) :
    (resetDecoder s).dec.state = .notSynchronized := rfl
@[simp] theorem resetDecoder_dec_shift (s : State) : (resetDecoder s).dec.shift = 0x0000#16 := rfl
@[simp] theorem resetDecoder_dec_elapsed (s : State) : (resetDecoder s).dec.elapsed = 0 := rfl
@[simp] theorem resetDecoder_dec_prevEdge (s : State) : (resetDecoder s).dec.prevEdge = .none := rfl
@[simp] theorem resetDecoder_det (s : State) : (resetDecoder s).det = s.det := rfl
@[simp] theorem resetDecoder_frameReadyQ (s : State) :
    (resetDecoder s).frameReadyQ = s.frameReadyQ := rfl
@[simp] theorem resetDecoder_outReady (s : State) : (resetDecoder s).outReady = s.outReady := rfl
@[simp] theorem resetDecoder_inputs (s : State) : (resetDecoder s).inputs = s.inputs := rfl

/-! ## powerOnReset -/

@[simp] theorem powerOnReset_params (s : State) : (powerOnReset s).params = s.params := rfl
@[simp] theorem powerOnReset_enc (s : State) : (powerOnReset s).enc = EncSession.powerOn := rfl
@[simp] theorem powerOnReset_dec (s : State) :
    (powerOnReset s).dec = DecSession.powerOn s.params.frameCap := rfl
@[simp] theorem powerOnReset_det (s : State) : (powerOnReset s).det = EdgeDetector.powerOn := rfl
@[simp] theorem powerOnReset_frameReadyQ (s : State) : (powerOnReset s).frameReadyQ = false := rfl
@[simp] theorem powerOnReset_outReady (s : State) : (powerOnReset s).outReady = false := rfl
@[simp] theorem powerOnReset_inputs (s : State) : (powerOnReset s).inputs = s.inputs := rfl

/-! ## State.dropInput -/

@[simp] theorem State.dropInput_params (s : State) : (s.dropInput).params = s.params := rfl
@[simp] theorem State.dropInput_enc (s : State) : (s.dropInput).enc = s.enc := rfl
@[simp] theorem State.dropInput_dec (s : State) : (s.dropInput).dec = s.dec := rfl
@[simp] theorem State.dropInput_det (s : State) : (s.dropInput).det = s.det := rfl
@[simp] theorem State.dropInput_frameReadyQ (s : State) :
    (s.dropInput).frameReadyQ = s.frameReadyQ := rfl
@[simp] theorem State.dropInput_outReady (s : State) : (s.dropInput).outReady = s.outReady := rfl
@[simp] theorem State.dropInput_inputs (s : State) : (s.dropInput).inputs = s.inputs.tail := rfl

/-! ## State.withFetchWord -/

@[simp] theorem State.withFetchWord_params (s : State) (nbits w : Nat) :
    (s.withFetchWord nbits w).params = s.params := rfl
@[simp] theorem State.withFetchWord_enc (s : State) (nbits w : Nat) :
    (s.withFetchWord nbits w).enc = s.enc := rfl
@[simp] theorem State.withFetchWord_dec (s : State) (nbits w : Nat) :
    (s.withFetchWord nbits w).dec = s.dec := rfl
@[simp] theorem State.withFetchWord_det (s : State) (nbits w : Nat) :
    (s.withFetchWord nbits w).det = s.det := rfl
@[simp] theorem State.withFetchWord_frameReadyQ (s : State) (nbits w : Nat) :
    (s.withFetchWord nbits w).frameReadyQ = s.frameReadyQ := rfl
@[simp] theorem State.withFetchWord_outReady (s : State) (nbits w : Nat) :
    (s.withFetchWord nbits w).outReady = s.outReady := rfl
@[simp] theorem State.withFetchWord_inputs (s : State) (nbits w : Nat) :
    (s.withFetchWord nbits w).inputs = .word (BitVec.ofNat 32 (w % 2 ^ nbits)) (zeroSide s.params.payloadCap) :: s.inputs := rfl

end Sys2Proof.Machine
end

