-- ==== Sys2Proof/Laws/Ops.lean ====
section
/-! SUPPORT. One lemma for each shared operation that says what it can do, and the frame of each: which
parts of the state it leaves alone. -/

namespace Sys2Proof.Machine

/-! ## Conditions and counters -/

theorem qualifies_iff (s : State) : qualifies s = true ↔ s.params.syncThreshold ≤ s.dec.elapsed := by
  simp [qualifies]

theorem isMidBit_iff (p : Params) (ph : Nat) : isMidBit p ph = true ↔ ph = p.ticksPerBit / 2 := by
  simp [isMidBit]

theorem isEndOfBit_iff (p : Params) (ph : Nat) : isEndOfBit p ph = true ↔ ph = p.ticksPerBit := by
  simp [isEndOfBit]

theorem locks_iff (d : Dir) (s : State) :
    locks d s = true ↔ (s.dec.prevEdge ≠ .none ∧ edgeOfDir d ≠ s.dec.prevEdge) ∧
      s.params.syncThreshold ≤ s.dec.elapsed := by
  simp [locks, qualifies]

theorem watchdogExpired_iff (s : State) :
    watchdogExpired s = true ↔
      s.dec.state = .dataSynchronized ∧ s.params.watchdogTicks < s.dec.elapsed := by
  simp [watchdogExpired]

/-- Below the counter's limit `sat_inc` adds one. -/
theorem satInc_of_lt {p : Params} {x : Nat} (h : x < 2 ^ p.cntW - 1) : satInc p x = x + 1 :=
  if_pos h

/-- At the counter's limit `sat_inc` stays. -/
theorem satInc_of_ge {p : Params} {x : Nat} (h : 2 ^ p.cntW - 1 ≤ x) : satInc p x = x :=
  if_neg (Nat.not_lt.mpr h)

/-- `sat_inc` stays in the counter's range. -/
theorem satInc_lt {p : Params} {x : Nat} (h : x < 2 ^ p.cntW) : satInc p x < 2 ^ p.cntW := by
  unfold satInc
  split <;> omega

/-! ## Bits -/

/-- A cursor position stands within the byte. -/
theorem bitIndex_lt (o : BitOrder) (k : BitVec 3) : bitIndex o k < 8 := by
  cases o <;> simp only [bitIndex] <;> omega

/-- Different cursor positions stand at different bits. -/
theorem bitIndex_inj (o : BitOrder) (j k : BitVec 3) : bitIndex o j = bitIndex o k ↔ j = k := by
  rw [← BitVec.toNat_inj]
  have := j.isLt
  have := k.isLt
  cases o with
  | msbFirst =>
    simp only [bitIndex]
    omega
  | lsbFirst => exact Iff.rfl

/-- `setbit` sets the bit at its position and leaves the others. -/
theorem wirebit_setbit (o : BitOrder) (b : Byte) (k j : BitVec 3) :
    wirebit o (setbit o b k) j = (decide (j = k) || wirebit o b j) := by
  have hj := bitIndex_lt o j
  have he : decide (j = k) = decide (bitIndex o j = bitIndex o k) := by
    simp only [bitIndex_inj]
  rw [he]
  simp only [wirebit, setbit, BitVec.getLsbD_or, BitVec.getLsbD_shiftLeft, BitVec.getLsbD_one]
  rw [Bool.or_comm]
  congr 1
  by_cases h : bitIndex o j = bitIndex o k
  · rw [h] at hj ⊢
    simp [hj]
  · simp only [decide_eq_false h, Bool.and_eq_false_iff]
    simp
    omega

/-- A shift moves every bit one up and puts the new bit at the bottom. -/
theorem shiftIn_getLsbD (x : SyncWord) (bv : Bool) (i : Nat) (h : i < 16) :
    (shiftIn x bv).getLsbD i = if i = 0 then bv else x.getLsbD (i - 1) := by
  unfold shiftIn
  rw [BitVec.getLsbD_append]
  by_cases hi : i = 0
  · simp [hi]
  · have h1 : ¬ i < 1 := by omega
    have h2 : i - 1 < 15 := by omega
    simp [hi, h1, h2]

/-! ## Performing an operation -/

/-- An operable state performs the effect. -/
theorem perform_of_operable (f : State → State) {s : State} (h : operable s) :
    perform f s = .next (f (beginOp s)) := by
  unfold perform
  rw [if_neg (not_not.mpr h.1), if_neg (not_not.mpr h.2)]

/-- An operation answers a next state only in an operable state, and then its effect. -/
theorem perform_next_iff (f : State → State) (s t : State) :
    perform f s = .next t ↔ operable s ∧ t = f (beginOp s) := by
  unfold perform
  split
  · rename_i h
    simp [h]
  · split
    · rename_i h
      simp [h]
    · rename_i h1 h2
      simp only [not_not] at h1 h2
      simp only [Host.Outcome.next.injEq]
      exact ⟨fun e => ⟨⟨h1, h2⟩, e.symm⟩, fun e => e.2.symm⟩

theorem exec_nop_next_iff (s t : State) :
    exec .nop s = .next t ↔ operable s ∧ t = beginOp s :=
  perform_next_iff (fun u => u) s t

theorem exec_tick_next_iff (s t : State) :
    exec .tick s = .next t ↔ operable s ∧ t = tick (beginOp s) :=
  perform_next_iff _ s t

theorem exec_rxSample_next_iff (level : Bool) (s t : State) :
    exec (.rxSample level) s = .next t ↔ operable s ∧ t = rxSample level (beginOp s) :=
  perform_next_iff _ s t

theorem exec_edge_next_iff (d : Dir) (s t : State) :
    exec (.edge d) s = .next t ↔ operable s ∧ t = edge d (beginOp s) :=
  perform_next_iff _ s t

theorem exec_resetDecoder_next_iff (s t : State) :
    exec .resetDecoder s = .next t ↔ operable s ∧ t = resetDecoder (beginOp s) :=
  perform_next_iff _ s t

theorem exec_startEncode_next_iff (len : Nat) (payload : List Byte) (s t : State) :
    exec (.startEncode len payload) s = .next t ↔
      operable s ∧ payload.length = s.params.payloadCap ∧ t = startEncode len payload (beginOp s) := by
  change execStartEncode len payload s = _ ↔ _
  unfold execStartEncode
  by_cases hp : paramsValid s.params ∧ payload.length ≠ s.params.payloadCap
  · rw [if_pos hp]
    constructor
    · intro h
      cases h
    · exact fun h => absurd h.2.1 hp.2
  · rw [if_neg hp, perform_next_iff]
    constructor
    · rintro ⟨ho, rfl⟩
      exact ⟨ho, not_not.mp fun hl => hp ⟨ho.1, hl⟩, rfl⟩
    · rintro ⟨ho, -, rfl⟩
      exact ⟨ho, rfl⟩

/-! ## Frames -/

@[simp] theorem advanceEncCursor_params (s : State) : (advanceEncCursor s).params = s.params := by
  unfold advanceEncCursor; split <;> rfl
@[simp] theorem advanceEncCursor_dec (s : State) : (advanceEncCursor s).dec = s.dec := by
  unfold advanceEncCursor; split <;> rfl
@[simp] theorem advanceEncCursor_det (s : State) : (advanceEncCursor s).det = s.det := by
  unfold advanceEncCursor; split <;> rfl
@[simp] theorem advanceEncCursor_frameReadyQ (s : State) :
    (advanceEncCursor s).frameReadyQ = s.frameReadyQ := by
  unfold advanceEncCursor; split <;> rfl
@[simp] theorem advanceEncCursor_outReady (s : State) :
    (advanceEncCursor s).outReady = s.outReady := by
  unfold advanceEncCursor; split <;> rfl
@[simp] theorem advanceEncCursor_inputs (s : State) : (advanceEncCursor s).inputs = s.inputs := by
  unfold advanceEncCursor; split <;> rfl

@[simp] theorem endIfSent_params (s : State) : (endIfSent s).params = s.params := by
  unfold endIfSent; split <;> rfl
@[simp] theorem endIfSent_dec (s : State) : (endIfSent s).dec = s.dec := by
  unfold endIfSent; split <;> rfl
@[simp] theorem endIfSent_det (s : State) : (endIfSent s).det = s.det := by
  unfold endIfSent; split <;> rfl
@[simp] theorem endIfSent_frameReadyQ (s : State) : (endIfSent s).frameReadyQ = s.frameReadyQ := by
  unfold endIfSent; split <;> rfl
@[simp] theorem endIfSent_outReady (s : State) : (endIfSent s).outReady = s.outReady := by
  unfold endIfSent; split <;> rfl
@[simp] theorem endIfSent_inputs (s : State) : (endIfSent s).inputs = s.inputs := by
  unfold endIfSent; split <;> rfl

@[simp] theorem writeLineIfDue_params (s : State) : (writeLineIfDue s).params = s.params := by
  unfold writeLineIfDue; split <;> rfl
@[simp] theorem writeLineIfDue_dec (s : State) : (writeLineIfDue s).dec = s.dec := by
  unfold writeLineIfDue; split <;> rfl
@[simp] theorem writeLineIfDue_det (s : State) : (writeLineIfDue s).det = s.det := by
  unfold writeLineIfDue; split <;> rfl
@[simp] theorem writeLineIfDue_frameReadyQ (s : State) :
    (writeLineIfDue s).frameReadyQ = s.frameReadyQ := by
  unfold writeLineIfDue; split <;> rfl
@[simp] theorem writeLineIfDue_outReady (s : State) : (writeLineIfDue s).outReady = s.outReady := by
  unfold writeLineIfDue; split <;> rfl
@[simp] theorem writeLineIfDue_inputs (s : State) : (writeLineIfDue s).inputs = s.inputs := by
  unfold writeLineIfDue; split <;> rfl

@[simp] theorem encTick_params (s : State) : (encTick s).params = s.params := by
  unfold encTick; split <;> [split <;> simp; rfl]
@[simp] theorem encTick_dec (s : State) : (encTick s).dec = s.dec := by
  unfold encTick; split <;> [split <;> simp; rfl]
@[simp] theorem encTick_det (s : State) : (encTick s).det = s.det := by
  unfold encTick; split <;> [split <;> simp; rfl]
@[simp] theorem encTick_frameReadyQ (s : State) : (encTick s).frameReadyQ = s.frameReadyQ := by
  unfold encTick; split <;> [split <;> simp; rfl]
@[simp] theorem encTick_outReady (s : State) : (encTick s).outReady = s.outReady := by
  unfold encTick; split <;> [split <;> simp; rfl]
@[simp] theorem encTick_inputs (s : State) : (encTick s).inputs = s.inputs := by
  unfold encTick; split <;> [split <;> simp; rfl]

@[simp] theorem extractBit_params (d : Dir) (s : State) : (extractBit d s).params = s.params := by
  unfold extractBit; split <;> rfl
@[simp] theorem extractBit_enc (d : Dir) (s : State) : (extractBit d s).enc = s.enc := by
  unfold extractBit; split <;> rfl
@[simp] theorem extractBit_det (d : Dir) (s : State) : (extractBit d s).det = s.det := by
  unfold extractBit; split <;> rfl
@[simp] theorem extractBit_frameReadyQ (d : Dir) (s : State) :
    (extractBit d s).frameReadyQ = s.frameReadyQ := by
  unfold extractBit; split <;> rfl
@[simp] theorem extractBit_outReady (d : Dir) (s : State) :
    (extractBit d s).outReady = s.outReady := by
  unfold extractBit; split <;> rfl
@[simp] theorem extractBit_inputs (d : Dir) (s : State) : (extractBit d s).inputs = s.inputs := by
  unfold extractBit; split <;> rfl

@[simp] theorem advanceDecCursor_params (s : State) : (advanceDecCursor s).params = s.params := by
  unfold advanceDecCursor; split <;> rfl
@[simp] theorem advanceDecCursor_enc (s : State) : (advanceDecCursor s).enc = s.enc := by
  unfold advanceDecCursor; split <;> rfl
@[simp] theorem advanceDecCursor_det (s : State) : (advanceDecCursor s).det = s.det := by
  unfold advanceDecCursor; split <;> rfl
@[simp] theorem advanceDecCursor_frameReadyQ (s : State) :
    (advanceDecCursor s).frameReadyQ = s.frameReadyQ := by
  unfold advanceDecCursor; split <;> rfl
@[simp] theorem advanceDecCursor_outReady (s : State) :
    (advanceDecCursor s).outReady = s.outReady := by
  unfold advanceDecCursor; split <;> rfl
@[simp] theorem advanceDecCursor_inputs (s : State) : (advanceDecCursor s).inputs = s.inputs := by
  unfold advanceDecCursor; split <;> rfl

@[simp] theorem completeIfFull_params (s : State) : (completeIfFull s).params = s.params := by
  unfold completeIfFull; split <;> rfl
@[simp] theorem completeIfFull_enc (s : State) : (completeIfFull s).enc = s.enc := by
  unfold completeIfFull; split <;> rfl
@[simp] theorem completeIfFull_det (s : State) : (completeIfFull s).det = s.det := by
  unfold completeIfFull; split <;> rfl
@[simp] theorem completeIfFull_frameReadyQ (s : State) :
    (completeIfFull s).frameReadyQ = s.frameReadyQ := by
  unfold completeIfFull; split <;> rfl
@[simp] theorem completeIfFull_inputs (s : State) : (completeIfFull s).inputs = s.inputs := by
  unfold completeIfFull; split <;> rfl

@[simp] theorem edgeNotSynchronized_params (d : Dir) (s : State) :
    (edgeNotSynchronized d s).params = s.params := by
  unfold edgeNotSynchronized; split <;> [split <;> rfl; rfl]
@[simp] theorem edgeNotSynchronized_enc (d : Dir) (s : State) :
    (edgeNotSynchronized d s).enc = s.enc := by
  unfold edgeNotSynchronized; split <;> [split <;> rfl; rfl]
@[simp] theorem edgeNotSynchronized_det (d : Dir) (s : State) :
    (edgeNotSynchronized d s).det = s.det := by
  unfold edgeNotSynchronized; split <;> [split <;> rfl; rfl]
@[simp] theorem edgeNotSynchronized_frameReadyQ (d : Dir) (s : State) :
    (edgeNotSynchronized d s).frameReadyQ = s.frameReadyQ := by
  unfold edgeNotSynchronized; split <;> [split <;> rfl; rfl]
@[simp] theorem edgeNotSynchronized_outReady (d : Dir) (s : State) :
    (edgeNotSynchronized d s).outReady = s.outReady := by
  unfold edgeNotSynchronized; split <;> [split <;> rfl; rfl]
@[simp] theorem edgeNotSynchronized_inputs (d : Dir) (s : State) :
    (edgeNotSynchronized d s).inputs = s.inputs := by
  unfold edgeNotSynchronized; split <;> [split <;> rfl; rfl]

@[simp] theorem matchIfSync_params (s : State) : (matchIfSync s).params = s.params := by
  unfold matchIfSync; split <;> rfl
@[simp] theorem matchIfSync_enc (s : State) : (matchIfSync s).enc = s.enc := by
  unfold matchIfSync; split <;> rfl
@[simp] theorem matchIfSync_det (s : State) : (matchIfSync s).det = s.det := by
  unfold matchIfSync; split <;> rfl
@[simp] theorem matchIfSync_frameReadyQ (s : State) :
    (matchIfSync s).frameReadyQ = s.frameReadyQ := by
  unfold matchIfSync; split <;> rfl
@[simp] theorem matchIfSync_outReady (s : State) : (matchIfSync s).outReady = s.outReady := by
  unfold matchIfSync; split <;> rfl
@[simp] theorem matchIfSync_inputs (s : State) : (matchIfSync s).inputs = s.inputs := by
  unfold matchIfSync; split <;> rfl

@[simp] theorem completeIfExpired_params (s : State) : (completeIfExpired s).params = s.params := by
  unfold completeIfExpired; split <;> rfl
@[simp] theorem completeIfExpired_enc (s : State) : (completeIfExpired s).enc = s.enc := by
  unfold completeIfExpired; split <;> rfl
@[simp] theorem completeIfExpired_det (s : State) : (completeIfExpired s).det = s.det := by
  unfold completeIfExpired; split <;> rfl
@[simp] theorem completeIfExpired_frameReadyQ (s : State) :
    (completeIfExpired s).frameReadyQ = s.frameReadyQ := by
  unfold completeIfExpired; split <;> rfl
@[simp] theorem completeIfExpired_inputs (s : State) : (completeIfExpired s).inputs = s.inputs := by
  unfold completeIfExpired; split <;> rfl

@[simp] theorem edgeBitSynchronized_params (d : Dir) (s : State) :
    (edgeBitSynchronized d s).params = s.params := by
  unfold edgeBitSynchronized; split <;> simp
@[simp] theorem edgeBitSynchronized_enc (d : Dir) (s : State) :
    (edgeBitSynchronized d s).enc = s.enc := by
  unfold edgeBitSynchronized; split <;> simp
@[simp] theorem edgeBitSynchronized_det (d : Dir) (s : State) :
    (edgeBitSynchronized d s).det = s.det := by
  unfold edgeBitSynchronized; split <;> simp
@[simp] theorem edgeBitSynchronized_frameReadyQ (d : Dir) (s : State) :
    (edgeBitSynchronized d s).frameReadyQ = s.frameReadyQ := by
  unfold edgeBitSynchronized; split <;> simp
@[simp] theorem edgeBitSynchronized_outReady (d : Dir) (s : State) :
    (edgeBitSynchronized d s).outReady = s.outReady := by
  unfold edgeBitSynchronized; split <;> simp
@[simp] theorem edgeBitSynchronized_inputs (d : Dir) (s : State) :
    (edgeBitSynchronized d s).inputs = s.inputs := by
  unfold edgeBitSynchronized; split <;> simp

@[simp] theorem edgeDataSynchronized_params (d : Dir) (s : State) :
    (edgeDataSynchronized d s).params = s.params := by
  unfold edgeDataSynchronized; split <;> simp
@[simp] theorem edgeDataSynchronized_enc (d : Dir) (s : State) :
    (edgeDataSynchronized d s).enc = s.enc := by
  unfold edgeDataSynchronized; split <;> simp
@[simp] theorem edgeDataSynchronized_det (d : Dir) (s : State) :
    (edgeDataSynchronized d s).det = s.det := by
  unfold edgeDataSynchronized; split <;> simp
@[simp] theorem edgeDataSynchronized_frameReadyQ (d : Dir) (s : State) :
    (edgeDataSynchronized d s).frameReadyQ = s.frameReadyQ := by
  unfold edgeDataSynchronized; split <;> simp
@[simp] theorem edgeDataSynchronized_inputs (d : Dir) (s : State) :
    (edgeDataSynchronized d s).inputs = s.inputs := by
  unfold edgeDataSynchronized; split <;> simp

@[simp] theorem edge_params (d : Dir) (s : State) : (edge d s).params = s.params := by
  unfold edge; split <;> simp
@[simp] theorem edge_enc (d : Dir) (s : State) : (edge d s).enc = s.enc := by
  unfold edge; split <;> simp
@[simp] theorem edge_det (d : Dir) (s : State) : (edge d s).det = s.det := by
  unfold edge; split <;> simp
@[simp] theorem edge_frameReadyQ (d : Dir) (s : State) :
    (edge d s).frameReadyQ = s.frameReadyQ := by
  unfold edge; split <;> simp
@[simp] theorem edge_inputs (d : Dir) (s : State) : (edge d s).inputs = s.inputs := by
  unfold edge; split <;> simp

@[simp] theorem rxSample_params (level : Bool) (s : State) :
    (rxSample level s).params = s.params := by
  unfold rxSample; split <;> [split <;> simp; rfl]
@[simp] theorem rxSample_enc (level : Bool) (s : State) : (rxSample level s).enc = s.enc := by
  unfold rxSample; split <;> [split <;> simp; rfl]
@[simp] theorem rxSample_frameReadyQ (level : Bool) (s : State) :
    (rxSample level s).frameReadyQ = s.frameReadyQ := by
  unfold rxSample; split <;> [split <;> simp; rfl]
@[simp] theorem rxSample_inputs (level : Bool) (s : State) :
    (rxSample level s).inputs = s.inputs := by
  unfold rxSample; split <;> [split <;> simp; rfl]

@[simp] theorem decTick_params (s : State) : (decTick s).params = s.params := by
  unfold decTick; split <;> simp
@[simp] theorem decTick_enc (s : State) : (decTick s).enc = s.enc := by
  unfold decTick; split <;> simp
@[simp] theorem decTick_det (s : State) : (decTick s).det = s.det := by
  unfold decTick; split <;> simp
@[simp] theorem decTick_frameReadyQ (s : State) : (decTick s).frameReadyQ = s.frameReadyQ := by
  unfold decTick; split <;> simp
@[simp] theorem decTick_inputs (s : State) : (decTick s).inputs = s.inputs := by
  unfold decTick; split <;> simp

@[simp] theorem tick_params (s : State) : (tick s).params = s.params := by
  simp [tick]
@[simp] theorem tick_det (s : State) : (tick s).det = s.det := by
  simp [tick]
@[simp] theorem tick_frameReadyQ (s : State) : (tick s).frameReadyQ = s.frameReadyQ := by
  simp [tick]
@[simp] theorem tick_inputs (s : State) : (tick s).inputs = s.inputs := by
  simp [tick]
/-! ## The fields after a conditional update -/

@[simp] theorem writeLineIfDue_enc_buf (s : State) : (writeLineIfDue s).enc.buf = s.enc.buf := by
  unfold writeLineIfDue; split <;> rfl
@[simp] theorem writeLineIfDue_enc_bit (s : State) : (writeLineIfDue s).enc.bit = s.enc.bit := by
  unfold writeLineIfDue; split <;> rfl
@[simp] theorem writeLineIfDue_enc_byte (s : State) : (writeLineIfDue s).enc.byte = s.enc.byte := by
  unfold writeLineIfDue; split <;> rfl
@[simp] theorem writeLineIfDue_enc_total (s : State) :
    (writeLineIfDue s).enc.total = s.enc.total := by
  unfold writeLineIfDue; split <;> rfl
@[simp] theorem writeLineIfDue_enc_active (s : State) :
    (writeLineIfDue s).enc.active = s.enc.active := by
  unfold writeLineIfDue; split <;> rfl
@[simp] theorem writeLineIfDue_enc_phase (s : State) :
    (writeLineIfDue s).enc.phase = s.enc.phase := by
  unfold writeLineIfDue; split <;> rfl

@[simp] theorem advanceEncCursor_enc_buf (s : State) :
    (advanceEncCursor s).enc.buf = s.enc.buf := by
  unfold advanceEncCursor; split <;> rfl
@[simp] theorem advanceEncCursor_enc_bit (s : State) :
    (advanceEncCursor s).enc.bit = if s.enc.bit = 7#3 then 0#3 else s.enc.bit + 1#3 := by
  unfold advanceEncCursor; split <;> rfl
@[simp] theorem advanceEncCursor_enc_byte (s : State) :
    (advanceEncCursor s).enc.byte = if s.enc.bit = 7#3 then s.enc.byte + 1 else s.enc.byte := by
  unfold advanceEncCursor; split <;> rfl
@[simp] theorem advanceEncCursor_enc_total (s : State) :
    (advanceEncCursor s).enc.total = s.enc.total := by
  unfold advanceEncCursor; split <;> rfl
@[simp] theorem advanceEncCursor_enc_active (s : State) :
    (advanceEncCursor s).enc.active = s.enc.active := by
  unfold advanceEncCursor; split <;> rfl
@[simp] theorem advanceEncCursor_enc_phase (s : State) :
    (advanceEncCursor s).enc.phase = s.enc.phase := by
  unfold advanceEncCursor; split <;> rfl
@[simp] theorem advanceEncCursor_enc_vclk (s : State) :
    (advanceEncCursor s).enc.vclk = s.enc.vclk := by
  unfold advanceEncCursor; split <;> rfl
@[simp] theorem advanceEncCursor_enc_tx (s : State) : (advanceEncCursor s).enc.tx = s.enc.tx := by
  unfold advanceEncCursor; split <;> rfl

@[simp] theorem endIfSent_enc_buf (s : State) : (endIfSent s).enc.buf = s.enc.buf := by
  unfold endIfSent; split <;> rfl
@[simp] theorem endIfSent_enc_bit (s : State) : (endIfSent s).enc.bit = s.enc.bit := by
  unfold endIfSent; split <;> rfl
@[simp] theorem endIfSent_enc_byte (s : State) : (endIfSent s).enc.byte = s.enc.byte := by
  unfold endIfSent; split <;> rfl
@[simp] theorem endIfSent_enc_total (s : State) : (endIfSent s).enc.total = s.enc.total := by
  unfold endIfSent; split <;> rfl
@[simp] theorem endIfSent_enc_active (s : State) :
    (endIfSent s).enc.active = if s.enc.byte = s.enc.total then false else s.enc.active := by
  unfold endIfSent; split <;> rfl
@[simp] theorem endIfSent_enc_phase (s : State) : (endIfSent s).enc.phase = s.enc.phase := by
  unfold endIfSent; split <;> rfl
@[simp] theorem endIfSent_enc_vclk (s : State) : (endIfSent s).enc.vclk = s.enc.vclk := by
  unfold endIfSent; split <;> rfl
@[simp] theorem endIfSent_enc_tx (s : State) : (endIfSent s).enc.tx = s.enc.tx := by
  unfold endIfSent; split <;> rfl

@[simp] theorem extractBit_dec_buf (d : Dir) (s : State) :
    (extractBit d s).dec.buf = if bitval d then s.dec.buf.write s.dec.byte
        (setbit s.params.order (s.dec.buf.read s.dec.byte) s.dec.bit) else s.dec.buf := by
  unfold extractBit; split <;> rfl
@[simp] theorem extractBit_dec_bit (d : Dir) (s : State) :
    (extractBit d s).dec.bit = s.dec.bit := by
  unfold extractBit; split <;> rfl
@[simp] theorem extractBit_dec_byte (d : Dir) (s : State) :
    (extractBit d s).dec.byte = s.dec.byte := by
  unfold extractBit; split <;> rfl
@[simp] theorem extractBit_dec_total (d : Dir) (s : State) :
    (extractBit d s).dec.total = s.dec.total := by
  unfold extractBit; split <;> rfl
@[simp] theorem extractBit_dec_active (d : Dir) (s : State) :
    (extractBit d s).dec.active = s.dec.active := by
  unfold extractBit; split <;> rfl
@[simp] theorem extractBit_dec_state (d : Dir) (s : State) :
    (extractBit d s).dec.state = s.dec.state := by
  unfold extractBit; split <;> rfl
@[simp] theorem extractBit_dec_shift (d : Dir) (s : State) :
    (extractBit d s).dec.shift = s.dec.shift := by
  unfold extractBit; split <;> rfl
@[simp] theorem extractBit_dec_elapsed (d : Dir) (s : State) :
    (extractBit d s).dec.elapsed = s.dec.elapsed := by
  unfold extractBit; split <;> rfl
@[simp] theorem extractBit_dec_prevEdge (d : Dir) (s : State) :
    (extractBit d s).dec.prevEdge = s.dec.prevEdge := by
  unfold extractBit; split <;> rfl

@[simp] theorem advanceDecCursor_dec_buf (s : State) :
    (advanceDecCursor s).dec.buf = s.dec.buf := by
  unfold advanceDecCursor; split <;> rfl
@[simp] theorem advanceDecCursor_dec_bit (s : State) :
    (advanceDecCursor s).dec.bit = if s.dec.bit = 7#3 then 0#3 else s.dec.bit + 1#3 := by
  unfold advanceDecCursor; split <;> rfl
@[simp] theorem advanceDecCursor_dec_byte (s : State) :
    (advanceDecCursor s).dec.byte = if s.dec.bit = 7#3 then s.dec.byte + 1 else s.dec.byte := by
  unfold advanceDecCursor; split <;> rfl
@[simp] theorem advanceDecCursor_dec_total (s : State) :
    (advanceDecCursor s).dec.total = s.dec.total := by
  unfold advanceDecCursor; split <;> rfl
@[simp] theorem advanceDecCursor_dec_active (s : State) :
    (advanceDecCursor s).dec.active = s.dec.active := by
  unfold advanceDecCursor; split <;> rfl
@[simp] theorem advanceDecCursor_dec_state (s : State) :
    (advanceDecCursor s).dec.state = s.dec.state := by
  unfold advanceDecCursor; split <;> rfl
@[simp] theorem advanceDecCursor_dec_shift (s : State) :
    (advanceDecCursor s).dec.shift = s.dec.shift := by
  unfold advanceDecCursor; split <;> rfl
@[simp] theorem advanceDecCursor_dec_elapsed (s : State) :
    (advanceDecCursor s).dec.elapsed = s.dec.elapsed := by
  unfold advanceDecCursor; split <;> rfl
@[simp] theorem advanceDecCursor_dec_prevEdge (s : State) :
    (advanceDecCursor s).dec.prevEdge = s.dec.prevEdge := by
  unfold advanceDecCursor; split <;> rfl

@[simp] theorem completeIfFull_dec_buf (s : State) : (completeIfFull s).dec.buf = s.dec.buf := by
  unfold completeIfFull; split <;> rfl
@[simp] theorem completeIfFull_dec_bit (s : State) : (completeIfFull s).dec.bit = s.dec.bit := by
  unfold completeIfFull; split <;> rfl
@[simp] theorem completeIfFull_dec_byte (s : State) : (completeIfFull s).dec.byte = s.dec.byte := by
  unfold completeIfFull; split <;> rfl
@[simp] theorem completeIfFull_dec_total (s : State) :
    (completeIfFull s).dec.total = s.dec.total := by
  unfold completeIfFull; split <;> rfl
@[simp] theorem completeIfFull_dec_active (s : State) :
    (completeIfFull s).dec.active = if s.dec.byte = s.dec.total then false else s.dec.active := by
  unfold completeIfFull; split <;> rfl
@[simp] theorem completeIfFull_dec_state (s : State) :
    (completeIfFull s).dec.state = if s.dec.byte = s.dec.total then .dataReady else s.dec.state := by
  unfold completeIfFull; split <;> rfl
@[simp] theorem completeIfFull_dec_shift (s : State) :
    (completeIfFull s).dec.shift = s.dec.shift := by
  unfold completeIfFull; split <;> rfl
@[simp] theorem completeIfFull_dec_elapsed (s : State) :
    (completeIfFull s).dec.elapsed = s.dec.elapsed := by
  unfold completeIfFull; split <;> rfl
@[simp] theorem completeIfFull_dec_prevEdge (s : State) :
    (completeIfFull s).dec.prevEdge = if s.dec.byte = s.dec.total then .none else s.dec.prevEdge := by
  unfold completeIfFull; split <;> rfl

@[simp] theorem completeIfFull_outReady (s : State) :
    (completeIfFull s).outReady = if s.dec.byte = s.dec.total then true else s.outReady := by
  unfold completeIfFull; split <;> rfl

/-! ## What each shared operation can do -/

/-- ENC_TICK does one of four things: nothing, the end-of-bit write, the mid-bit write, or count. -/
theorem encTick_cases (s : State) :
    (s.enc.active = false ∧ encTick s = s) ∨
    (s.enc.active = true ∧ s.enc.phase + 1 = s.params.ticksPerBit ∧
      encTick s = setPhase 0 (endIfSent (advanceEncCursor (writeLine s)))) ∨
    (s.enc.active = true ∧ s.enc.phase + 1 ≠ s.params.ticksPerBit ∧
      s.enc.phase + 1 = s.params.ticksPerBit / 2 ∧
      encTick s = setPhase (s.enc.phase + 1) (writeLine s)) ∨
    (s.enc.active = true ∧ s.enc.phase + 1 ≠ s.params.ticksPerBit ∧
      s.enc.phase + 1 ≠ s.params.ticksPerBit / 2 ∧
      encTick s = setPhase (s.enc.phase + 1) s) := by
  have hw : ∀ b, (isMidBit s.params (nextPhase s) || isEndOfBit s.params (nextPhase s)) = b →
      writeLineIfDue s = if b then writeLine s else s := fun b hb => by rw [← hb]; rfl
  cases ha : s.enc.active with
  | false => exact .inl ⟨rfl, by simp [encTick, ha]⟩
  | true =>
    refine .inr ?_
    by_cases he : s.enc.phase + 1 = s.params.ticksPerBit
    · exact .inl ⟨rfl, he, by
        simp [encTick, ha, hw true (by simp [isEndOfBit, nextPhase, he]), isEndOfBit, nextPhase, he]⟩
    · by_cases hm : s.enc.phase + 1 = s.params.ticksPerBit / 2
      · refine .inr (.inl ⟨rfl, he, hm, ?_⟩)
        rw [encTick, hw true (by simp [isMidBit, nextPhase, hm])]
        simp only [ha, isEndOfBit, nextPhase, beq_iff_eq, if_neg he, if_true]
      · refine .inr (.inr ⟨rfl, he, hm, ?_⟩)
        rw [encTick, hw false (by simp [isMidBit, isEndOfBit, nextPhase, hm, he])]
        simp [ha, isEndOfBit, nextPhase, he]

/-- DEC_TICK does one of three things: nothing, complete by the watchdog, or count. -/
theorem decTick_cases (s : State) :
    (s.dec.active = false ∧ decTick s = s) ∨
    (s.dec.active = true ∧ s.dec.state = .dataSynchronized ∧
      s.params.watchdogTicks < satInc s.params s.dec.elapsed ∧
      decTick s = complete (countTick s)) ∨
    (s.dec.active = true ∧ (s.dec.state = .dataSynchronized →
        satInc s.params s.dec.elapsed ≤ s.params.watchdogTicks) ∧
      decTick s = countTick s) := by
  cases ha : s.dec.active with
  | false => exact .inl ⟨rfl, by simp [decTick, ha]⟩
  | true =>
    refine .inr ?_
    by_cases hs : s.dec.state = .dataSynchronized
    · by_cases hw : s.params.watchdogTicks < satInc s.params s.dec.elapsed
      · exact .inl ⟨rfl, hs, hw, by simp [decTick, completeIfExpired, ha, watchdogExpired, hs, hw]⟩
      · exact .inr ⟨rfl, fun _ => by omega, by
          simp [decTick, completeIfExpired, ha, watchdogExpired, hs, hw]⟩
    · exact .inr ⟨rfl, fun h => absurd h hs, by
        simp [decTick, completeIfExpired, ha, watchdogExpired, hs]⟩

/-- EDGE in NotSynchronized arms, locks, or only restarts the counter. -/
theorem edge_notSynchronized_cases (d : Dir) {s : State} (h : s.dec.state = .notSynchronized) :
    (s.dec.active = false ∧ edge d s = recordEdge d (arm s)) ∨
    (s.dec.active = true ∧ locks d s = true ∧
      edge d s = recordEdge d (restartCounter (lock d s))) ∨
    (s.dec.active = true ∧ locks d s = false ∧
      edge d s = recordEdge d (restartCounter s)) := by
  have he : edge d s = edgeNotSynchronized d s := by unfold edge; rw [h]
  rw [he]
  cases ha : s.dec.active with
  | false => exact .inl ⟨rfl, by simp [edgeNotSynchronized, ha]⟩
  | true =>
    cases hl : locks d s with
    | true => exact .inr (.inl ⟨rfl, rfl, by simp [edgeNotSynchronized, ha, hl]⟩)
    | false => exact .inr (.inr ⟨rfl, rfl, by simp [edgeNotSynchronized, ha, hl]⟩)

/-- EDGE in BitSynchronized is noise, or shifts, or shifts and matches. -/
theorem edge_bitSynchronized_cases (d : Dir) {s : State} (h : s.dec.state = .bitSynchronized) :
    (qualifies s = false ∧ edge d s = recordEdge d s) ∨
    (qualifies s = true ∧ shiftIn s.dec.shift (bitval d) ≠ s.params.sync ∧
      edge d s = recordEdge d (shiftBit d s)) ∨
    (qualifies s = true ∧ shiftIn s.dec.shift (bitval d) = s.params.sync ∧
      edge d s = recordEdge d (syncMatch (shiftBit d s))) := by
  have he : edge d s = edgeBitSynchronized d s := by unfold edge; rw [h]
  rw [he]
  cases hq : qualifies s with
  | false => exact .inl ⟨rfl, by simp [edgeBitSynchronized, hq]⟩
  | true =>
    by_cases hm : shiftIn s.dec.shift (bitval d) = s.params.sync
    · exact .inr (.inr ⟨rfl, hm, by simp [edgeBitSynchronized, matchIfSync, hq, hm]⟩)
    · exact .inr (.inl ⟨rfl, hm, by simp [edgeBitSynchronized, matchIfSync, hq, hm]⟩)

/-- EDGE in DataSynchronized is noise, or extracts a bit. -/
theorem edge_dataSynchronized_cases (d : Dir) {s : State} (h : s.dec.state = .dataSynchronized) :
    (qualifies s = false ∧ edge d s = recordEdge d s) ∨
    (qualifies s = true ∧ edge d s = completeIfFull
      (advanceDecCursor (restartCounter (extractBit d (recordEdge d s))))) := by
  have he : edge d s = edgeDataSynchronized d s := by unfold edge; rw [h]
  rw [he]
  cases hq : qualifies s with
  | false => exact .inl ⟨rfl, by simp [edgeDataSynchronized, hq]⟩
  | true => exact .inr ⟨rfl, by simp [edgeDataSynchronized, hq]⟩

/-- EDGE in DataReady changes nothing. -/
theorem edge_dataReady (d : Dir) {s : State} (h : s.dec.state = .dataReady) : edge d s = s := by
  unfold edge
  rw [h]

/-- RX_SAMPLE initialises the detector, does nothing, or performs the edge of the change. -/
theorem rxSample_cases (level : Bool) (s : State) :
    (s.det.rxSeen = false ∧ rxSample level s = initDetector level s) ∨
    (s.det.rxSeen = true ∧ level = s.det.rxPrev ∧ rxSample level s = s) ∨
    (s.det.rxSeen = true ∧ level ≠ s.det.rxPrev ∧
      rxSample level s = edge (dirOfLevel level) (recordLevel level s)) := by
  cases hs : s.det.rxSeen with
  | false => exact .inl ⟨rfl, by simp [rxSample, hs]⟩
  | true =>
    by_cases hl : level = s.det.rxPrev
    · exact .inr (.inl ⟨rfl, hl, by simp [rxSample, hs, hl]⟩)
    · exact .inr (.inr ⟨rfl, hl, by simp [rxSample, hs, hl]⟩)

/-- The cursors of the encoder advance together: to the next bit, or to the first bit of the next
byte. -/
theorem advanceEncCursor_cases (s : State) :
    (s.enc.bit = 7#3 ∧
      advanceEncCursor s = { s with enc.bit := 0#3, enc.byte := s.enc.byte + 1 }) ∨
    (s.enc.bit ≠ 7#3 ∧ advanceEncCursor s = { s with enc.bit := s.enc.bit + 1#3 }) := by
  unfold advanceEncCursor
  split
  · exact .inl ⟨‹_›, rfl⟩
  · exact .inr ⟨‹_›, rfl⟩

/-- The cursors of the decoder advance together: to the next bit, or to the first bit of the next
byte. -/
theorem advanceDecCursor_cases (s : State) :
    (s.dec.bit = 7#3 ∧
      advanceDecCursor s = { s with dec.bit := 0#3, dec.byte := s.dec.byte + 1 }) ∨
    (s.dec.bit ≠ 7#3 ∧ advanceDecCursor s = { s with dec.bit := s.dec.bit + 1#3 }) := by
  unfold advanceDecCursor
  split
  · exact .inl ⟨‹_›, rfl⟩
  · exact .inr ⟨‹_›, rfl⟩

/-- What START_ENCODE's buffer holds at every index. -/
theorem read_loadFrame (p : Params) (bs : List Byte) (m : Memory) (i : Nat) :
    (loadFrame p bs m).read i =
      if i = 1 then syncByte1 p else if i = 0 then syncByte0 p
      else if 2 ≤ i ∧ i < 2 + bs.length then bs.getD (i - 2) resetByte else m.read i := by
  unfold loadFrame
  rw [Memory.read_write, Memory.read_write, Memory.read_writeBytes]

/-- What the sync match leaves at every index. -/
theorem read_storeMatch (p : Params) (shift : SyncWord) (m : Memory) (i : Nat) :
    (storeMatch p shift m).read i =
      if 2 ≤ i ∧ i < 2 + (p.frameCap - 2) then 0x00#8
      else if i = 1 then wireToByte p.order (shift.extractLsb' 0 8)
      else if i = 0 then wireToByte p.order (shift.extractLsb' 8 8) else m.read i := by
  unfold storeMatch
  rw [Memory.read_writeBytes, Memory.read_write, Memory.read_write, List.length_replicate]
  by_cases h : 2 ≤ i ∧ i < 2 + (p.frameCap - 2)
  · rw [if_pos h, if_pos h, List.getD_eq_getElem?_getD, List.getElem?_replicate]
    split <;> rfl
  · rw [if_neg h, if_neg h]

/-! ## Sequences of operations -/

@[simp] theorem runOps_nil (s : State) : runOps [] s = .next (beginOp s) := rfl

/-- A sequence answers a next state exactly when its first operation and the rest do. -/
theorem runOps_cons_next_iff (i : Instr) (rest : List Instr) (s v : State) :
    runOps (i :: rest) s = .next v ↔
      ∃ t u, exec i s = .next t ∧ runOps rest t = .next u ∧
        v = { u with outReady := t.outReady || u.outReady } := by
  rw [runOps]
  cases exec i s with
  | next t =>
    cases hu : runOps rest t with
    | next u => simp [hu, eq_comm]
    | fault f => cases f
    | refused r => simp [hu]
  | fault f => cases f
  | refused r => simp

end Sys2Proof.Machine
end

