-- ==== Sys2Proof/Laws/PerInstr.lean ====
section
/-! SUPPORT. Facts about every operation as syntax, one lemma per constructor of `Instr`. -/

namespace Sys2Proof.Laws

/-- The operation's word names a code of the operation map and leaves the `rsv` field 0
(30_encoding.md R87, R89). -/
def EncodedFields.Statement (i : Instr) : Prop :=
  (opField (encodeWord i)).toNat < 6 ∧ rsvField (encodeWord i) = 0

theorem EncodedFields.nop : EncodedFields.Statement .nop := ⟨by decide, by decide⟩

theorem EncodedFields.tick : EncodedFields.Statement .tick := ⟨by decide, by decide⟩

theorem EncodedFields.rxSample (level : Bool) : EncodedFields.Statement (.rxSample level) := by
  cases level <;> exact ⟨by decide, by decide⟩

theorem EncodedFields.edge (dir : Dir) : EncodedFields.Statement (.edge dir) := by
  cases dir <;> exact ⟨by decide, by decide⟩

theorem EncodedFields.resetDecoder : EncodedFields.Statement .resetDecoder :=
  ⟨by decide, by decide⟩

/-- The `op` field of a packed word. -/
theorem opField_packWord (op : BitVec 4) (arg : Bool) (len : BitVec 16) :
    opField (packWord op arg len) = op := by
  apply BitVec.eq_of_getLsbD_eq
  intro k hk
  simp only [opField, packWord, BitVec.getLsbD_extractLsb', BitVec.getLsbD_append]
  have h5 : k < 5 := by omega
  have h16 : k < 16 := by omega
  simp [hk, h5, h16]

/-- The `rsv` field of a packed word. -/
theorem rsvField_packWord (op : BitVec 4) (arg : Bool) (len : BitVec 16) :
    rsvField (packWord op arg len) = 0 := by
  apply BitVec.eq_of_getLsbD_eq
  intro k hk
  simp only [rsvField, packWord, BitVec.getLsbD_extractLsb', BitVec.getLsbD_append]
  simp
  omega

/-- The `a` bit of a packed word. -/
theorem argField_packWord (op : BitVec 4) (arg : Bool) (len : BitVec 16) :
    argField (packWord op arg len) = arg := by
  simp only [argField, packWord, BitVec.getLsbD_append]
  simp

/-- The `len` field of a packed word. -/
theorem lenField_packWord (op : BitVec 4) (arg : Bool) (len : BitVec 16) :
    lenField (packWord op arg len) = len := by
  apply BitVec.eq_of_getLsbD_eq
  intro k hk
  simp only [lenField, packWord, BitVec.getLsbD_extractLsb', BitVec.getLsbD_append]
  simp [hk]

theorem EncodedFields.startEncode (len : Nat) (payload : List Byte) :
    EncodedFields.Statement (.startEncode len payload) :=
  ⟨by rw [encodeWord, opField_packWord]; decide, by rw [encodeWord, rsvField_packWord]⟩

end Sys2Proof.Laws
end

