-- ==== Sys2Proof/Tests/Slice0.lean ====
section
/-! SUPPORT. Tests: the well-formedness smoke, words written out from 30_encoding.md, one-step vectors from
95_test_vectors.md, and for every statement with hypotheses a concrete case that meets them. -/

namespace Sys2Proof.Tests

open Sys2Proof.Machine

/-! ## Small states -/

/-- The state an outcome goes on with. -/
def next (o : Outcome) : Option State :=
  match o with
  | .next t => some t
  | .fault _ => none
  | .refused _ => none

/-- The reason an outcome is refused. -/
def refusal (o : Outcome) : Option Refusal :=
  match o with
  | .next _ => none
  | .fault _ => none
  | .refused r => some r

/-- After `start 2, [0x12, 0x34]` from power-on reset (40_encoder.md R103), with some cursor and phase. -/
def sending (byte : Nat) (bit : BitVec 3) (phase : Nat) : State :=
  { State.reset with
    enc.buf := [(0, 0xAA#8), (1, 0x55#8), (2, 0x12#8), (3, 0x34#8)]
    enc.byte := byte, enc.bit := bit, enc.total := 4, enc.active := true, enc.phase := phase
    enc.vclk := decide (phase < 5) }

/-- Armed in NotSynchronized. -/
def armed (e : Edge) (elapsed : Nat) : State :=
  { State.reset with dec.active := true, dec.prevEdge := e, dec.elapsed := elapsed }

/-- BitSynchronized. -/
def locked (shift : SyncWord) (elapsed : Nat) : State :=
  { armed .falling elapsed with dec.state := .bitSynchronized, dec.shift := shift }

/-- DataSynchronized, with the sync field in `DecBuf`. -/
def receiving (byte : Nat) (bit : BitVec 3) (elapsed : Nat) : State :=
  { armed .falling elapsed with
    dec.state := .dataSynchronized, dec.shift := 0xAA55#16, dec.byte := byte, dec.bit := bit
    dec.buf := [(0, 0xAA#8), (1, 0x55#8)] }

/-- DataReady, after a frame of two payload bytes. -/
def received : State :=
  { State.reset with
    dec.state := .dataReady, dec.shift := 0xAA55#16, dec.byte := 4, dec.elapsed := 31
    dec.buf := [(0, 0xAA#8), (1, 0x55#8), (2, 0x12#8), (3, 0x34#8)] }

/-- The edge detector has seen the level. -/
def seen (level : Bool) (s : State) : State := { s with det.rxPrev := level, det.rxSeen := true }

/-- A payload for the reference configuration's `P = 6`. -/
def six : List Byte := [0x12#8, 0x34#8, 0#8, 0#8, 0#8, 0#8]

/-- A clock cycle in which only `tick` is set. -/
def tickCycle : PortsIn where
  rst := false
  tick := true
  rx := false
  start := false
  startLen := 0
  startPayload := 0
  resetDecoder := false
  rdAddr := 0

/-! ## Well-formedness: the ill-formed terms are refused -/

theorem test_wellFormed_start : (Instr.startEncode 65535 six).wellFormed 6 = true := by decide
theorem test_illFormed_length : (Instr.startEncode 65536 six).wellFormed 6 = false := by decide
theorem test_illFormed_short_payload : (Instr.startEncode 2 (six.drop 1)).wellFormed 6 = false := by
  decide
theorem test_illFormed_long_payload : (Instr.startEncode 2 (0#8 :: six)).wellFormed 6 = false := by
  decide

/-! ## Words, field by field from the table of 30_encoding.md R87: `len`, `rsv`, `a`, `op` -/

theorem test_decode_nop :
    decode 6 0b0000000000000000_00000000000_0_0000#32 [] = .ok .nop := by rfl
theorem test_decode_tick :
    decode 6 0b0000000000000000_00000000000_0_0001#32 [] = .ok .tick := by rfl
theorem test_decode_rx_high :
    decode 6 0b0000000000000000_00000000000_1_0010#32 [] = .ok (.rxSample true) := by rfl
theorem test_decode_rx_low :
    decode 6 0b0000000000000000_00000000000_0_0010#32 [] = .ok (.rxSample false) := by rfl
theorem test_decode_edge_rise :
    decode 6 0b0000000000000000_00000000000_1_0011#32 [] = .ok (.edge .rising) := by rfl
theorem test_decode_edge_fall :
    decode 6 0b0000000000000000_00000000000_0_0011#32 [] = .ok (.edge .falling) := by rfl
theorem test_decode_resetDecoder :
    decode 6 0b0000000000000000_00000000000_0_0100#32 [] = .ok .resetDecoder := by rfl
theorem test_decode_start :
    decode 6 0b0000000000000010_00000000000_0_0101#32 six = .ok (.startEncode 2 six) := by rfl
theorem test_decode_start_longest :
    decode 6 0b1111111111111111_00000000000_0_0101#32 six = .ok (.startEncode 65535 six) := by rfl

theorem test_encode_nop : encodeWord .nop = 0x00000000#32 := by rfl
theorem test_encode_tick : encodeWord .tick = 0x00000001#32 := by rfl
theorem test_encode_rx : encodeWord (.rxSample true) = 0x00000012#32 := by rfl
theorem test_encode_edge : encodeWord (.edge .rising) = 0x00000013#32 := by rfl
theorem test_encode_resetDecoder : encodeWord .resetDecoder = 0x00000004#32 := by rfl
theorem test_encode_start : encodeWord (.startEncode 300 six) = 0x012C0005#32 := by rfl

theorem test_refuse_reserved_op : decode 6 0x0000000F#32 six = .error .reservedOp := by rfl
theorem test_refuse_rsv_low : decode 6 0x00000020#32 six = .error .reservedField := by rfl
theorem test_refuse_rsv_high : decode 6 0x00008001#32 six = .error .reservedField := by rfl
theorem test_refuse_stray_argument : decode 6 0x00000015#32 six = .error .strayArgument := by rfl
theorem test_refuse_stray_length : decode 6 0x00010013#32 six = .error .strayLength := by rfl
theorem test_refuse_side_operand : decode 6 0x00020005#32 (six.drop 1) = .error .sideOperandSize := by
  rfl

theorem test_table_word : decodeTableWord 32 0x00000013 = some (.edge .rising) := by rfl
theorem test_table_word_refused : decodeTableWord 32 0x00000014 = none := by rfl
theorem test_fetch_word : next (step (State.reset.withFetchWord 32 0x00000012)) =
    some (seen true State.reset) := by rfl
theorem test_fetch_reserved : refusal (step (State.reset.withFetchWord 32 0x00000006)) =
    some .reservedWord := by rfl

/-! ## One step, from 95_test_vectors.md -/

/-- L2.2: mid-bit, data bit 1: `1 ^ 1 = 0`, and the virtual clock flips. -/
theorem test_tick_mid_bit : (next (exec .tick (sending 0 0#3 4))).map
    (fun t => (t.enc.tx, t.enc.vclk, t.enc.phase)) = some (false, false, 5) := by rfl

/-- L2.2: the end of the frame's last bit. -/
theorem test_tick_end_of_frame : (next (exec .tick (sending 3 7#3 9))).map
    (fun t => (t.enc.byte, t.enc.bit, t.enc.active, t.enc.tx)) = some (4, 0#3, false, false) := by rfl

/-- 41_decoder.md R142: the watchdog at `W = 30`. -/
theorem test_watchdog : (next (exec .tick (receiving 4 0#3 30))).map
    (fun t => (t.dec.elapsed, t.dec.state, t.outReady)) = some (31, .dataReady, true) := by rfl

/-- 41_decoder.md R122: the first sample makes no edge. -/
theorem test_rx_first : next (exec (.rxSample true) State.reset) = some (seen true State.reset) := by rfl

/-- 41_decoder.md R122: then `rx 0` is a falling edge. -/
theorem test_rx_falling : next (exec (.rxSample false) (seen true State.reset)) =
    some (seen false (armed .falling 0)) := by rfl

/-- L2.5: the edge that completes the match. -/
theorem test_edge_match : (next (exec (.edge .rising) (locked 0x552A#16 10))).map
    (fun t => (t.dec.state, t.dec.shift, t.dec.buf, t.dec.byte)) =
      some (.dataSynchronized, 0xAA55#16, [(0, 0xAA#8), (1, 0x55#8)], 2) := by rfl

/-- 41_decoder.md R136: bit position 3 of byte 2 is bit 4 under MSB_FIRST. -/
theorem test_edge_extract : (next (exec (.edge .rising) (receiving 2 3#3 10))).map
    (fun t => (t.dec.buf.read 2, t.dec.bit, t.dec.elapsed)) = some (0x10#8, 4#3, 0) := by rfl

/-- L2.9: the received bytes stay. -/
theorem test_resetDecoder : (next (exec .resetDecoder received)).map
    (fun t => (t.dec.state, t.dec.byte, t.dec.buf.read 2)) = some (.notSynchronized, 0, 0x12#8) := by rfl

/-- 40_encoder.md R103: the worked example. -/
theorem test_start : next (exec (.startEncode 2 six) State.reset) = some (sending 0 0#3 0) := by rfl

/-- L2.1: a length of 300 is clamped to `P = 6`. -/
theorem test_start_clamped : (next (exec (.startEncode 300 six) State.reset)).map
    (fun t => (t.enc.total, t.enc.buf.read 7)) = some (8, 0x00#8) := by rfl

/-- 42_events_and_ports.md R162. -/
theorem test_nop : next (exec .nop received) = some received := by rfl

/-- L2.12: the pulse survives a RESET_DECODER in the completing cycle. -/
theorem test_cycle_reset_keeps_pulse : (next (step { receiving 4 0#3 30 with
      inputs := [.cycle { tickCycle with resetDecoder := true }] })).map
    (fun t => (t.dec.state, t.frameReadyQ)) = some (.notSynchronized, true) := by rfl

/-- 42_events_and_ports.md R169: index 9 does not exist for `C = 8`. -/
theorem test_read_port : (portsOut received 3).rdData = 0x34#8 ∧ (portsOut received 9).rdData = 0#8 := by
  decide

/-! ## Trace lines (30_encoding.md R92, R93) -/

theorem test_trace_start : parseTraceLine ['s', 't', 'a', 'r', 't', ' ', '2', ',', ' ', '[', '0', 'x', '1',
    '2', ',', '5', '2', ']', ' ', ';', 'x'] = some (some (.start 2 [0x12#8, 0x34#8])) := by rfl
theorem test_trace_comment : parseTraceLine [' ', ';', ' ', 'a'] = some none := by rfl
theorem test_trace_unknown : parseTraceLine ['r', 'x', ' ', '2'] = none := by rfl
theorem test_trace_padded : traceInputs 6 (.start 2 [0x12#8, 0x34#8]) =
    some [.word 0x00020005#32 six] := by rfl
theorem test_trace_too_long : traceInputs 6 (.start 7 (0#8 :: six)) = none := by rfl
theorem test_trace_no_ticks : traceInputs 6 (.lbticks 0) = some [] := by rfl

/-! ## A case that meets the hypotheses of each statement, for each of its clauses -/

theorem witness_operable :
    operable State.reset ∧ operable (sending 0 0#3 0) ∧ operable received ∧ coreInv received ∧
    paramsValid State.reset.params := by and_intros <;> decide

theorem witness_TickEncoderEffect :
    (operable State.reset ∧ State.reset.enc.active = false) ∧
    (operable (sending 3 7#3 9) ∧ (sending 3 7#3 9).enc.active = true ∧
      (sending 3 7#3 9).enc.phase + 1 = (sending 3 7#3 9).params.ticksPerBit) ∧
    (operable (sending 0 0#3 4) ∧ (sending 0 0#3 4).enc.active = true ∧
      (sending 0 0#3 4).enc.phase + 1 = (sending 0 0#3 4).params.ticksPerBit / 2) ∧
    (operable (sending 0 0#3 8) ∧ (sending 0 0#3 8).enc.active = true) := by and_intros <;> decide

theorem witness_TickDecoderEffect :
    (operable State.reset ∧ State.reset.dec.active = false) ∧
    (operable (receiving 2 0#3 30) ∧ (receiving 2 0#3 30).dec.state = .dataSynchronized ∧
      (receiving 2 0#3 30).params.watchdogTicks < 30 + 1) ∧
    (operable (receiving 2 0#3 29) ∧ ¬ (receiving 2 0#3 29).params.watchdogTicks < 29 + 1) ∧
    (operable (armed .rising 65535) ∧ ¬ 65535 < 2 ^ (armed .rising 65535).params.cntW - 1) := by
  and_intros <;> decide

theorem witness_LineLevelsFollowDataBit :
    (operable (sending 2 3#3 4) ∧ encoderOk (sending 2 3#3 4) ∧ (sending 2 3#3 4).enc.active = true ∧
      (sending 2 3#3 4).enc.phase + 1 = (sending 2 3#3 4).params.ticksPerBit / 2) ∧
    (operable (sending 2 3#3 9) ∧ encoderOk (sending 2 3#3 9) ∧ (sending 2 3#3 9).enc.active = true ∧
      (sending 2 3#3 9).enc.phase + 1 = (sending 2 3#3 9).params.ticksPerBit) := by
  and_intros <;> decide

theorem witness_LastBitEndsTransmission :
    operable (sending 3 7#3 9) ∧ encoderOk (sending 3 7#3 9) ∧ (sending 3 7#3 9).enc.active = true ∧
    (sending 3 7#3 9).enc.phase + 1 = (sending 3 7#3 9).params.ticksPerBit ∧
    (sending 3 7#3 9).enc.bit = 7#3 ∧
    (sending 3 7#3 9).enc.byte + 1 = (sending 3 7#3 9).enc.total := by and_intros <;> decide

theorem witness_RxSampleEffect :
    (operable State.reset ∧ State.reset.det.rxSeen = false) ∧
    (operable (seen true State.reset) ∧ (seen true State.reset).det.rxPrev = true) ∧
    (operable (seen false received) ∧ (seen false received).det.rxPrev ≠ true ∧
      (seen false received).dec.state = .dataReady) := by and_intros <;> decide

theorem witness_EdgeArmsIdleDecoder :
    operable State.reset ∧ State.reset.dec.state = .notSynchronized ∧
    State.reset.dec.active = false := by and_intros <;> decide

theorem witness_EdgeInArmedNotSynchronized :
    (operable (armed .rising 8) ∧ (armed .rising 8).dec.state = .notSynchronized ∧
      (armed .rising 8).dec.active = true ∧ (armed .rising 8).dec.prevEdge ≠ .none ∧
      edgeOfDir .falling ≠ (armed .rising 8).dec.prevEdge ∧
      (armed .rising 8).params.syncThreshold ≤ 8) ∧
    (operable (armed .rising 7) ∧ ¬ (armed .rising 7).params.syncThreshold ≤ 7) ∧
    (operable (armed .rising 40) ∧ edgeOfDir .rising = (armed .rising 40).dec.prevEdge) := by
  and_intros <;> decide

theorem witness_EdgeInBitSynchronized :
    (operable (locked 2#16 7) ∧ (locked 2#16 7).dec.state = .bitSynchronized ∧
      7 < (locked 2#16 7).params.syncThreshold) ∧
    (operable (locked 2#16 8) ∧ ¬ 8 < (locked 2#16 8).params.syncThreshold ∧
      (2#16 <<< 1 ||| 1#16) ≠ (locked 2#16 8).params.sync) ∧
    (operable (locked 0x552A#16 8) ∧ (0x552A#16 <<< 1 ||| 1#16) = (locked 0x552A#16 8).params.sync) := by
  and_intros <;> decide

theorem witness_EdgeInDataSynchronized :
    (operable (receiving 2 0#3 7) ∧ (receiving 2 0#3 7).dec.state = .dataSynchronized ∧
      7 < (receiving 2 0#3 7).params.syncThreshold) ∧
    (operable (receiving 7 6#3 8) ∧
      false = decide ((receiving 7 6#3 8).dec.bit = 7#3 ∧
        (receiving 7 6#3 8).dec.byte + 1 = (receiving 7 6#3 8).params.frameCap)) ∧
    (operable (receiving 7 7#3 30) ∧
      true = decide ((receiving 7 7#3 30).dec.bit = 7#3 ∧
        (receiving 7 7#3 30).dec.byte + 1 = (receiving 7 7#3 30).params.frameCap)) := by
  and_intros <;> decide

theorem witness_DataReadyIgnoresEdgeAndTick :
    operable received ∧ received.dec.state = .dataReady := by and_intros <;> decide

theorem witness_ResetDecoderEffect :
    operable received ∧ operable (locked 2#16 65535) ∧ operable (receiving 7 7#3 30) := by
  and_intros <;> decide

theorem witness_StartEncodeEffect :
    operable (sending 1 3#3 6) ∧ six.length = (sending 1 3#3 6).params.frameCap - 2 ∧
    six.length = (sending 1 3#3 6).params.payloadCap := by and_intros <;> decide

theorem witness_StartEncodeWrongPayloadRefused :
    paramsValid State.reset.params ∧ (six.drop 1).length ≠ State.reset.params.payloadCap ∧
    (0#8 :: six).length ≠ State.reset.params.payloadCap := by and_intros <;> decide

theorem witness_OperationsCompleteWhereOperable :
    operable (receiving 2 0#3 0) ∧
    (Instr.startEncode 65535 six).wellFormed (receiving 2 0#3 0).params.payloadCap = true ∧
    Instr.tick.wellFormed (receiving 2 0#3 0).params.payloadCap = true := by and_intros <;> decide

theorem witness_UnreachableStateRefused :
    paramsValid (receiving 2 0#3 31).params ∧ ¬ valuesOk (receiving 2 0#3 31) ∧
    ¬ valuesOk (receiving 8 0#3 0) ∧ ¬ valuesOk (sending 4 0#3 0) ∧ ¬ valuesOk (sending 0 0#3 10) ∧
    ¬ valuesOk (armed .none 0) ∧
    Instr.nop.wellFormed (receiving 2 0#3 31).params.payloadCap = true := by and_intros <;> decide

theorem witness_OperationsLeaveParametersAndWrapper :
    (∃ t, exec .tick (sending 0 0#3 4) = .next t) ∧ (∃ t, exec (.edge .rising) (armed .falling 8) = .next t) ∧
    ∃ t, exec (.startEncode 1 six) received = .next t := ⟨⟨_, rfl⟩, ⟨_, rfl⟩, ⟨_, rfl⟩⟩

/-- Two states with the same encoder and different decoders, and two with the same decoder. -/
theorem witness_EncoderAndDecoderAreIndependent :
    (received.params = (locked 2#16 9).params ∧ received.enc = (locked 2#16 9).enc ∧
      received.dec ≠ (locked 2#16 9).dec ∧
      (∃ t₁, exec .tick received = .next t₁) ∧ ∃ t₂, exec .tick (locked 2#16 9) = .next t₂) ∧
    (State.reset.params = (sending 0 0#3 4).params ∧ State.reset.dec = (sending 0 0#3 4).dec ∧
      State.reset.det = (sending 0 0#3 4).det ∧ State.reset.enc ≠ (sending 0 0#3 4).enc ∧
      (∃ t₁, exec .tick State.reset = .next t₁) ∧ ∃ t₂, exec .tick (sending 0 0#3 4) = .next t₂) :=
  ⟨⟨rfl, rfl, by decide, ⟨_, rfl⟩, ⟨_, rfl⟩⟩, ⟨rfl, rfl, rfl, by decide, ⟨_, rfl⟩, ⟨_, rfl⟩⟩⟩

/-- Every transition of 41_decoder.md R145 is made by some operation. -/
theorem witness_DecodeStateTransitions :
    (next (exec (.edge .rising) State.reset)).map (fun t => t.dec.state) = some .notSynchronized ∧
    (next (exec (.edge .rising) (armed .falling 8))).map (fun t => t.dec.state) = some .bitSynchronized ∧
    (next (exec (.edge .rising) (locked 0x552A#16 8))).map (fun t => t.dec.state) =
      some .dataSynchronized ∧
    (next (exec (.edge .rising) (receiving 7 7#3 8))).map (fun t => t.dec.state) = some .dataReady ∧
    (next (exec .tick (receiving 2 1#3 30))).map (fun t => t.dec.state) = some .dataReady ∧
    (next (exec .resetDecoder received)).map (fun t => t.dec.state) = some .notSynchronized :=
  ⟨rfl, rfl, rfl, rfl, rfl, rfl⟩

theorem witness_NotificationExactlyOnCompletion :
    (∃ t, exec .tick (receiving 2 1#3 30) = .next t ∧ t.outReady = true) ∧
    ∃ t, exec .tick (receiving 2 1#3 29) = .next t ∧ t.outReady = false :=
  ⟨⟨_, rfl, rfl⟩, ⟨_, rfl, rfl⟩⟩

theorem witness_DataReadyLastsUntilReset :
    received.dec.state = .dataReady ∧ (∀ i ∈ [Instr.edge .rising, Instr.tick], i ≠ .resetDecoder) ∧
    ∃ t, runOps [.edge .rising, .tick] received = .next t := ⟨rfl, by decide, ⟨_, rfl⟩⟩

theorem witness_CounterSaturatesWithoutWatchdog :
    (operable (armed .rising 0) ∧ (armed .rising 0).dec.active = true ∧
      (armed .rising 0).dec.state ≠ .dataSynchronized) ∧
    (operable (locked 2#16 65535) ∧ (locked 2#16 65535).dec.active = true ∧
      (locked 2#16 65535).dec.state ≠ .dataSynchronized) := by and_intros <;> decide

theorem witness_WatchdogEndsDataSynchronized :
    (operable (receiving 2 0#3 0) ∧ (receiving 2 0#3 0).dec.state = .dataSynchronized) ∧
    (operable (receiving 7 7#3 30) ∧ (receiving 7 7#3 30).dec.state = .dataSynchronized ∧
      (receiving 7 7#3 30).dec.elapsed + 0 ≤ (receiving 7 7#3 30).params.watchdogTicks) := by
  and_intros <;> decide

theorem witness_DecodeOfEncodeIsTheOperation :
    (Instr.startEncode 65535 six).wellFormed 6 = true ∧ (Instr.edge .rising).wellFormed 6 = true := by
  and_intros <;> decide

theorem witness_EncodeOfDecodeIsTheWord :
    decode 6 0xFFFF0005#32 six = .ok (.startEncode 65535 six) ∧
    decode 6 0x00000012#32 six = .ok (.rxSample true) := ⟨rfl, rfl⟩

theorem witness_ReservedWordsRefusedExactly :
    paramsValid State.reset.params ∧
    refusal (step { State.reset with inputs := [.word 0x00000006#32 six] }) = some .reservedWord ∧
    refusal (step { State.reset with inputs := [.word 0x00000014#32 six] }) = some .reservedWord ∧
    refusal (step { State.reset with inputs := [.word 0x00020005#32 []] }) = some .reservedWord ∧
    refusal (step { State.reset with inputs := [.word 0x00020005#32 six] }) = none :=
  ⟨by decide, rfl, rfl, rfl, rfl⟩

theorem witness_StepPerformsDecodedOperation :
    (¬ paramsValid { Config.reference with ticksPerBit := 9 }) ∧ paramsValid Config.reference ∧
    decode Config.reference.payloadCap 0x00020005#32 six = .ok (.startEncode 2 six) ∧
    decode Config.reference.payloadCap 0x00010001#32 six = .error .strayLength :=
  ⟨by decide, by decide, rfl, rfl⟩

theorem witness_StepWithoutInputIsNop : operable received ∧ received.inputs = [] := by
  and_intros <;> decide

theorem witness_LoopbackSampleReadsTheLine :
    operable { sending 0 0#3 0 with inputs := [.loopRx] } ∧
    ({ sending 0 0#3 0 with inputs := [.loopRx] } : State).inputs = .loopRx :: [] := by
  and_intros <;> decide

theorem witness_RstCycleAppliesPowerOnReset :
    paramsValid received.params ∧ ({ tickCycle with rst := true } : PortsIn).rst = true ∧
    ({ received with inputs := [.cycle { tickCycle with rst := true }] } : State).inputs =
      .cycle { tickCycle with rst := true } :: [] := by and_intros <;> decide

/-- A cycle with all four operations. -/
def fullCycle : PortsIn :=
  { tickCycle with rx := true, start := true, startLen := 1, startPayload := 0x0F, resetDecoder := true }

theorem witness_ClockCycleOrder : ∃ a b c d,
    exec .tick { received with inputs := [] } = .next a ∧ exec (.rxSample fullCycle.rx) a = .next b ∧
    exec (.startEncode fullCycle.startLen
      ((List.range (received.params.frameCap - 2)).map fun i =>
        BitVec.ofNat 8 (fullCycle.startPayload / 2 ^ (8 * i)))) b = .next c ∧
    exec .resetDecoder c = .next d :=
  ⟨_, _, _, _, rfl, rfl, rfl, rfl⟩

theorem witness_EveryClockCycleCompletes :
    coreInv { received with inputs := [.cycle fullCycle] } ∧
    coreInv { sending 3 7#3 9 with inputs := [.loopCycle tickCycle] } := by and_intros <;> decide

/-- A cycle that sets `frame_ready_q`, and one after it. -/
theorem witness_FrameReadyIsAOneCyclePulse : ∃ t u,
    step { receiving 4 0#3 30 with inputs := [.cycle tickCycle, .cycle tickCycle] } = .next t ∧
    t.frameReadyQ = true ∧ step t = .next u := ⟨_, _, rfl, rfl, rfl⟩

theorem witness_ResetDecoderWinsTheCycle :
    coreInv { receiving 7 7#3 30 with inputs := [.cycle fullCycle] } ∧
    fullCycle.resetDecoder = true := by and_intros <;> decide

theorem witness_ReadPortReturnsTheBufferByte :
    7 < received.params.frameCap ∧ received.params.frameCap ≤ 8 := by and_intros <;> decide

theorem witness_LoopbackCycleSamplesTx :
    ({ sending 0 0#3 4 with inputs := [.loopCycle tickCycle] } : State).inputs =
      .loopCycle tickCycle :: [] := rfl

/-- Byte 0x12 goes on the wire as 0x12 under MSB_FIRST and as 0x48 under LSB_FIRST. -/
theorem witness_WireToByteInvertsTheWireOrder :
    (∀ k : BitVec 3, (0x12#8).getLsbD (7 - k.toNat) = wirebit .msbFirst 0x12#8 k) ∧
    (∀ k : BitVec 3, (0x48#8).getLsbD (7 - k.toNat) = wirebit .lsbFirst 0x12#8 k) := by
  and_intros <;> decide

theorem witness_PowerOnMeetsTheInvariants :
    paramsValid Config.reference ∧
    paramsValid { Config.reference with
      ticksPerBit := 2, syncThreshold := 2, watchdogTicks := 2, frameCap := 3, order := .lsbFirst } := by
  and_intros <;> decide

theorem witness_StepKeepsTheInvariant :
    blockInv { receiving 7 7#3 30 with inputs := [.cycle fullCycle] } ∧
    ∃ t, step { receiving 7 7#3 30 with inputs := [.cycle fullCycle] } = .next t :=
  ⟨by decide, ⟨_, rfl⟩⟩

theorem witness_StepKeepsTheEncoderInvariant :
    blockInv { sending 3 7#3 9 with inputs := [.word 0x00000001#32 []] } ∧
    encoderOk { sending 3 7#3 9 with inputs := [.word 0x00000001#32 []] } ∧
    ∃ t, step { sending 3 7#3 9 with inputs := [.word 0x00000001#32 []] } = .next t :=
  ⟨by decide, by decide, ⟨_, rfl⟩⟩

/-- A frame whose last edge arrives: it stays in the frame, with bits before the cursor. -/
theorem witness_StepKeepsTheReceivedFrame :
    blockInv { receiving 7 7#3 10 with inputs := [.word 0x00000013#32 []] } ∧
    receivedFrameOk { receiving 7 7#3 10 with inputs := [.word 0x00000013#32 []] } ∧
    inFrame { receiving 7 7#3 10 with inputs := [.word 0x00000013#32 []] } ∧
    ∃ t, step { receiving 7 7#3 10 with inputs := [.word 0x00000013#32 []] } = .next t ∧
      inFrame t ∧ t.dec.byte = 8 := by
  refine ⟨by decide, fun _ => ⟨rfl, rfl, ?_, by decide⟩, .inl rfl, ⟨_, rfl, .inr rfl, rfl⟩⟩
  intro i hi
  have h : 7 < i := hi
  show Memory.read [(0, 0xAA#8), (1, 0x55#8)] i = 0x00#8
  simp only [Memory.read]
  rw [if_neg (by omega), if_neg (by omega)]
  rfl

/-- The shortest and the longest frame. Of the shortest, at `N = 10`: tick 4 is before the first write, ticks
5 and 9 lie in the first range of bit 0, ticks 10 and 14 in the second, and bit 15 is the last. -/
theorem witness_EncoderLineTiming :
    operable received ∧
    (∃ t, exec (.startEncode 0 six) received = .next t ∧ 0 < 8 * t.enc.total ∧
      15 + 1 = 8 * t.enc.total) ∧
    (∃ t, exec (.startEncode 6 six) received = .next t) ∧
    4 < received.params.ticksPerBit / 2 ∧
    0 * received.params.ticksPerBit + received.params.ticksPerBit / 2 ≤ 5 ∧
    9 < (0 + 1) * received.params.ticksPerBit ∧
    (0 + 1) * received.params.ticksPerBit ≤ 10 ∧
    14 < (0 + 1) * received.params.ticksPerBit + received.params.ticksPerBit / 2 :=
  ⟨by decide, ⟨_, rfl, by decide, rfl⟩, ⟨_, rfl⟩, by decide, by decide, by decide, by decide, by decide⟩

/-- An idle decoder on a quiet line, and a full frame, a short one and an empty one to send. -/
theorem witness_LoopbackLocksAndMatches :
    coreInv (seen false State.reset) ∧ (seen false State.reset).dec.state = .notSynchronized ∧
    (seen false State.reset).dec.active = false ∧
    ((seen false State.reset).det.rxSeen = true →
      (seen false State.reset).det.rxPrev = (seen false State.reset).enc.tx) ∧
    ∃ t, exec (.startEncode 2 six) (seen false State.reset) = .next t :=
  ⟨by decide, rfl, rfl, by decide, ⟨_, rfl⟩⟩

theorem witness_LoopbackRoundTrip :
    coreInv State.reset ∧ State.reset.dec.state = .notSynchronized ∧
    State.reset.dec.active = false ∧
    (State.reset.det.rxSeen = true → State.reset.det.rxPrev = State.reset.enc.tx) ∧
    (∃ t, exec (.startEncode 6 six) State.reset = .next t ∧
      6 = min 6 State.reset.params.payloadCap) ∧
    (∃ t, exec (.startEncode 2 six) State.reset = .next t ∧
      2 = min 2 State.reset.params.payloadCap ∧ 2 ≠ State.reset.params.payloadCap) ∧
    ∃ t, exec (.startEncode 0 six) State.reset = .next t :=
  ⟨by decide, rfl, rfl, by decide, ⟨_, rfl, rfl⟩, ⟨_, rfl, rfl, by decide⟩, ⟨_, rfl⟩⟩

end Sys2Proof.Tests
end

section
/-! The rules that every operation, clock cycle and step obeys: which effect an operation performs, and
how an invariant of the two sessions passes from the operations to `runOps`, `clockCycle` and `step`. -/

namespace Sys2Proof.Machine

/-! ## What an operation does when it completes -/

/-- The effect that `exec` performs behind its guard. -/
def effect (i : Instr) (s : State) : State :=
  match i with
  | .nop => s
  | .tick => tick s
  | .rxSample level => rxSample level s
  | .edge d => edge d s
  | .resetDecoder => resetDecoder s
  | .startEncode len payload => startEncode len payload s

/-- An operation that completes was performed in an operable state, and had its effect. -/
theorem exec_next {i : Instr} {s t : State} (h : exec i s = .next t) :
    operable s ∧ t = effect i (beginOp s) := by
  cases i with
  | nop => exact (exec_nop_next_iff s t).mp h
  | tick => exact (exec_tick_next_iff s t).mp h
  | rxSample level => exact (exec_rxSample_next_iff level s t).mp h
  | edge d => exact (exec_edge_next_iff d s t).mp h
  | resetDecoder => exact (exec_resetDecoder_next_iff s t).mp h
  | startEncode len payload =>
    obtain ⟨ho, -, ht⟩ := (exec_startEncode_next_iff len payload s t).mp h
    exact ⟨ho, ht⟩

@[simp] theorem effect_params (i : Instr) (s : State) : (effect i s).params = s.params := by
  cases i <;> simp [effect]
@[simp] theorem effect_frameReadyQ (i : Instr) (s : State) :
    (effect i s).frameReadyQ = s.frameReadyQ := by
  cases i <;> simp [effect]
@[simp] theorem effect_inputs (i : Instr) (s : State) : (effect i s).inputs = s.inputs := by
  cases i <;> simp [effect]

/-- No operation writes the parameters (10_state.md R41). -/
theorem exec_params {i : Instr} {s t : State} (h : exec i s = .next t) : t.params = s.params := by
  obtain ⟨-, rfl⟩ := exec_next h
  exact effect_params i (beginOp s)

/-! ## What a clock cycle and a step do -/

/-- A clock cycle that answers a next state is a power-on reset, or its operations in their order. -/
theorem clockCycle_next {ports : PortsIn} {s t : State} (h : clockCycle ports s = .next t) :
    paramsValid s.params ∧
      ((ports.rst = true ∧ t = powerOnReset s) ∨
       (ports.rst = false ∧ ∃ u, runOps (cycleOps s.params ports) s = .next u ∧
          t = { u with frameReadyQ := u.outReady })) := by
  unfold clockCycle at h
  split at h
  · cases h
  · rename_i hp
    refine ⟨not_not.mp hp, ?_⟩
    cases hr : ports.rst with
    | true =>
      simp only [hr, if_true, Host.Outcome.next.injEq] at h
      exact .inl ⟨rfl, h.symm⟩
    | false =>
      simp only [hr, Bool.false_eq_true, if_false] at h
      cases hu : runOps (cycleOps s.params ports) s with
      | next u =>
        simp only [hu, Host.Outcome.next.injEq] at h
        exact .inr ⟨rfl, u, rfl, h.symm⟩
      | fault f => cases f
      | refused r => simp [hu] at h

theorem State.dropInput_of_nil {s : State} (h : s.inputs = []) : s.dropInput = s := by
  cases s
  simp_all [State.dropInput]

/-- A step that answers a next state performs one operation or one clock cycle, on the state without the
input that presented it. -/
theorem step_next {s t : State} (h : step s = .next t) :
    (∃ i, exec i s.dropInput = .next t) ∨ ∃ ports, clockCycle ports s.dropInput = .next t := by
  unfold step at h
  split at h
  next hn => exact .inl ⟨.nop, by rwa [State.dropInput_of_nil hn]⟩
  next w side _ _ =>
    split at h
    · cases h
    · split at h
      next i _ => exact .inl ⟨i, h⟩
      next => cases h
  next => exact .inl ⟨_, h⟩
  next => exact .inr ⟨_, h⟩
  next => exact .inr ⟨_, h⟩

/-! ## Invariants of the two sessions -/

/-- A predicate that looks at the parameters and at the two sessions only. -/
def OfSessions (I : State → Prop) : Prop :=
  ∀ s t : State, t.params = s.params → t.enc = s.enc → t.dec = s.dec → I s → I t

theorem runOps_keeps {I : State → Prop} (hI : OfSessions I)
    (hexec : ∀ i s t, exec i s = .next t → I s → I t) {is : List Instr} {s t : State}
    (h : runOps is s = .next t) (hs : I s) : I t := by
  induction is generalizing s t with
  | nil =>
    rw [runOps_nil] at h
    cases h
    exact hI s _ rfl rfl rfl hs
  | cons i rest ih =>
    obtain ⟨u, v, hu, hv, rfl⟩ := (runOps_cons_next_iff i rest s t).mp h
    exact hI v _ rfl rfl rfl (ih hv (hexec i s u hu hs))

/-- What holds after power-on reset and is kept by every operation is kept by every step. -/
theorem step_keeps {I : State → Prop} (hI : OfSessions I)
    (hexec : ∀ i s t, exec i s = .next t → I s → I t)
    (hreset : ∀ p, paramsValid p → I (State.powerOn p)) {s t : State}
    (h : step s = .next t) (hs : I s) : I t := by
  have hdrop : I s.dropInput := hI s _ rfl rfl rfl hs
  rcases step_next h with ⟨i, hi⟩ | ⟨ports, hc⟩
  · exact hexec i _ t hi hdrop
  · obtain ⟨hp, ⟨-, rfl⟩ | ⟨-, u, hu, rfl⟩⟩ := clockCycle_next hc
    · exact hI (State.powerOn s.dropInput.params) _ rfl rfl rfl (hreset _ hp)
    · exact hI u _ rfl rfl rfl (runOps_keeps hI hexec hu hdrop)

/-- A predicate that looks at the parameters and at the encode session only. -/
def OfEncoder (J : State → Prop) : Prop :=
  ∀ s t : State, t.params = s.params → t.enc = s.enc → J s → J t

/-- A predicate that looks at the parameters and at the decode session only. -/
def OfDecoder (J : State → Prop) : Prop :=
  ∀ s t : State, t.params = s.params → t.dec = s.dec → J s → J t

theorem OfEncoder.ofSessions {J : State → Prop} (hJ : OfEncoder J) : OfSessions J :=
  fun s t hp he _ => hJ s t hp he

/-- What ENC_TICK and START_ENCODE keep of the encoder every operation keeps: no other operation writes
the encode session (40_encoder.md R100). -/
theorem exec_keeps_encoder {J : State → Prop} (hJ : OfEncoder J)
    (htick : ∀ s, operable s → J s → J (encTick s))
    (hstart : ∀ len payload s, operable s → J s → J (startEncode len payload s))
    {i : Instr} {s t : State} (h : exec i s = .next t) (hs : J s) : J t := by
  obtain ⟨ho, rfl⟩ := exec_next h
  have hbegin : J (beginOp s) := hJ s _ rfl rfl hs
  have hframe : (effect i (beginOp s)).enc = (beginOp s).enc → J (effect i (beginOp s)) :=
    fun he => hJ _ _ (effect_params i _) he hbegin
  cases i with
  | nop => exact hbegin
  | tick => exact hJ _ _ (decTick_params _) (decTick_enc _) (htick (beginOp s) ho hbegin)
  | rxSample level => exact hframe (rxSample_enc level _)
  | edge d => exact hframe (edge_enc d _)
  | resetDecoder => exact hframe (resetDecoder_enc _)
  | startEncode len payload => exact hstart len payload (beginOp s) ho hbegin

/-- What EDGE, DEC_TICK and RESET_DECODER keep of the decoder every operation keeps: no other operation
writes the decode session, and RX_SAMPLE writes it by EDGE only (41_decoder.md R120, R121). -/
theorem exec_keeps_decoder {J : State → Prop} (hJ : OfDecoder J)
    (hedge : ∀ d s, paramsValid s.params → J s → J (edge d s))
    (htick : ∀ s, paramsValid s.params → J s → J (decTick s))
    (hreset : ∀ s, paramsValid s.params → J s → J (resetDecoder s))
    {i : Instr} {s t : State} (h : exec i s = .next t) (hs : J s) : J t := by
  obtain ⟨⟨hp, -⟩, rfl⟩ := exec_next h
  have hbegin : J (beginOp s) := hJ s _ rfl rfl hs
  cases i with
  | nop => exact hbegin
  | tick =>
    have henc : J (encTick (beginOp s)) := hJ _ _ (encTick_params _) (encTick_dec _) hbegin
    exact htick _ (by rwa [encTick_params]) henc
  | rxSample level =>
    show J (rxSample level (beginOp s))
    rcases rxSample_cases level (beginOp s) with ⟨-, h⟩ | ⟨-, -, h⟩ | ⟨-, -, h⟩ <;> rw [h]
    · exact hJ _ _ (initDetector_params level _) (initDetector_dec level _) hbegin
    · exact hbegin
    · exact hedge _ _ hp (hJ _ _ (recordLevel_params level _) (recordLevel_dec level _) hbegin)
  | edge d => exact hedge d (beginOp s) hp hbegin
  | resetDecoder => exact hreset (beginOp s) hp hbegin
  | startEncode len payload =>
    exact hJ _ _ (startEncode_params len payload _) (startEncode_dec len payload _) hbegin

end Sys2Proof.Machine
end

section
/-! The invariant of the block (10_state.md R43, R44), and that every step keeps it (O46). It falls into
one half for each session; an operation of one session leaves the other half alone. -/

namespace Sys2Proof.Machine

/-! ## The two halves of the invariant -/

/-- The encode session's half of `blockInv`. -/
structure EncSessionOk (p : Params) (e : EncSession) : Prop where
  byte_le : e.byte ≤ p.frameCap
  total_le : e.total ≤ p.frameCap
  phase_lt : e.phase < p.ticksPerBit
  byte_lt_total : e.active = true → e.byte < e.total
  buf_wf : e.buf.wf
  buf_below : e.buf.below p.frameCap

/-- What the registers of the decoder satisfy in each decode state (10_state.md R43, R44, log 15). -/
def decControlOk (p : Params) (d : DecSession) : Prop :=
  match d.state with
  | .notSynchronized =>
    d.byte < p.frameCap ∧ (d.active = true → d.prevEdge ≠ .none) ∧
      (d.active = false → d.prevEdge = .none ∧ d.elapsed = 0)
  | .bitSynchronized => d.active = true ∧ d.byte < p.frameCap
  | .dataSynchronized =>
    d.active = true ∧ 2 ≤ d.byte ∧ d.byte < p.frameCap ∧ d.elapsed ≤ p.watchdogTicks
  | .dataReady => d.active = false

/-- The decode session's half of `blockInv`. -/
structure DecSessionOk (p : Params) (d : DecSession) : Prop where
  byte_le : d.byte ≤ p.frameCap
  total_eq : d.total = p.frameCap
  elapsed_lt : d.elapsed < 2 ^ p.cntW
  control : decControlOk p d
  buf_wf : d.buf.wf
  buf_below : d.buf.below p.frameCap

/-- The encode session of a state meets its half. -/
abbrev encOk (s : State) : Prop := EncSessionOk s.params s.enc

/-- The decode session of a state meets its half. -/
abbrev decOk (s : State) : Prop := DecSessionOk s.params s.dec

theorem decControlOk_notSynchronized {p : Params} {d : DecSession}
    (h : d.state = .notSynchronized) :
    decControlOk p d ↔ d.byte < p.frameCap ∧ (d.active = true → d.prevEdge ≠ .none) ∧
      (d.active = false → d.prevEdge = .none ∧ d.elapsed = 0) := by
  rw [decControlOk, h]

theorem decControlOk_bitSynchronized {p : Params} {d : DecSession}
    (h : d.state = .bitSynchronized) :
    decControlOk p d ↔ d.active = true ∧ d.byte < p.frameCap := by
  rw [decControlOk, h]

theorem decControlOk_dataSynchronized {p : Params} {d : DecSession}
    (h : d.state = .dataSynchronized) :
    decControlOk p d ↔
      d.active = true ∧ 2 ≤ d.byte ∧ d.byte < p.frameCap ∧ d.elapsed ≤ p.watchdogTicks := by
  rw [decControlOk, h]

theorem decControlOk_dataReady {p : Params} {d : DecSession} (h : d.state = .dataReady) :
    decControlOk p d ↔ d.active = false := by
  rw [decControlOk, h]

/-- The decoder's clauses of the invariant, read by decode state. -/
theorem decControlOk_iff {s : State} (hb : s.dec.total = s.params.frameCap) :
    decControlOk s.params s.dec ↔
      (s.dec.active = true → s.dec.byte < s.dec.total) ∧ decoderOk s ∧ idleCursorOk s := by
  rw [hb]
  cases hd : s.dec.state with
  | notSynchronized =>
    simp [decControlOk_notSynchronized hd, decoderOk, idleCursorOk, hd]
    tauto
  | bitSynchronized =>
    simp [decControlOk_bitSynchronized hd, decoderOk, idleCursorOk, hd]
    tauto
  | dataSynchronized =>
    simp [decControlOk_dataSynchronized hd, decoderOk, idleCursorOk, hd]
    tauto
  | dataReady =>
    simp +contextual [decControlOk_dataReady hd, decoderOk, idleCursorOk, hd]

/-- The invariant of the block is the configuration's validity and one half for each session. -/
theorem blockInv_iff (s : State) :
    blockInv s ↔ paramsValid s.params ∧ encOk s ∧ decOk s := by
  constructor
  · rintro ⟨⟨⟨hp, ⟨heb, het, hph, hdb, hdt, hel⟩, ⟨hea, hda⟩, hdec⟩, hidle⟩,
      ⟨hew, hebelow⟩, hdw, hdbelow⟩
    exact ⟨hp, ⟨heb, het, hph, hea, hew, hebelow⟩,
      hdb, hdt, hel, (decControlOk_iff hdt).mpr ⟨hda, hdec, hidle⟩, hdw, hdbelow⟩
  · rintro ⟨hp, he, hd⟩
    obtain ⟨hda, hdec, hidle⟩ := (decControlOk_iff hd.total_eq).mp hd.control
    exact ⟨⟨⟨hp, ⟨he.byte_le, he.total_le, he.phase_lt, hd.byte_le, hd.total_eq, hd.elapsed_lt⟩,
      ⟨he.byte_lt_total, hda⟩, hdec⟩, hidle⟩, ⟨he.buf_wf, he.buf_below⟩, hd.buf_wf, hd.buf_below⟩

/-! ## The buffers -/

theorem loadFrame_wf (p : Params) (bs : List Byte) {m : Memory} (h : m.wf) :
    (loadFrame p bs m).wf :=
  Memory.write_wf _ _ (Memory.write_wf _ _ (Memory.writeBytes_wf _ _ h))

theorem loadFrame_below {p : Params} {bs : List Byte} {m : Memory} (h : m.below p.frameCap)
    (hl : 2 + bs.length ≤ p.frameCap) : (loadFrame p bs m).below p.frameCap :=
  Memory.write_below _ (Memory.write_below _ (Memory.writeBytes_below _ h hl) (by omega)) (by omega)

theorem storeMatch_wf (p : Params) (shift : SyncWord) {m : Memory} (h : m.wf) :
    (storeMatch p shift m).wf :=
  Memory.writeBytes_wf _ _ (Memory.write_wf _ _ (Memory.write_wf _ _ h))

theorem storeMatch_below {p : Params} (shift : SyncWord) {m : Memory} (h : m.below p.frameCap)
    (hc : 2 ≤ p.frameCap) : (storeMatch p shift m).below p.frameCap :=
  Memory.writeBytes_below _
    (Memory.write_below _ (Memory.write_below _ h (by omega)) (by omega))
    (by rw [List.length_replicate]; omega)

/-- The clamped frame fits the buffer (40_encoder.md R102). -/
theorem clampLength_add_two_le {p : Params} (hp : paramsValid p) (len : Nat) :
    clampLength p len + 2 ≤ p.frameCap := by
  obtain ⟨-, -, -, ⟨hc, -⟩, -, -⟩ := hp
  unfold clampLength Params.payloadCap
  omega

/-! ## The encoder keeps its half -/

theorem startEncode_encOk (len : Nat) (payload : List Byte) {s : State}
    (hp : paramsValid s.params) (h : encOk s) : encOk (startEncode len payload s) := by
  have hfit := clampLength_add_two_le hp len
  obtain ⟨⟨-, hN⟩, -⟩ := hp
  exact {
    byte_le := Nat.zero_le _
    total_le := hfit
    phase_lt := Nat.lt_of_lt_of_le Nat.zero_lt_two hN
    byte_lt_total := fun _ => Nat.succ_pos _
    buf_wf := loadFrame_wf _ _ h.buf_wf
    buf_below := loadFrame_below h.buf_below (by rw [List.length_take]; omega) }

/-- The byte cursor moves by at most one byte. -/
theorem advanceEncCursor_byte_le (s : State) :
    (advanceEncCursor s).enc.byte ≤ s.enc.byte + 1 := by
  rcases advanceEncCursor_cases s with ⟨-, h⟩ | ⟨-, h⟩ <;> rw [h]
  exact Nat.le_succ _

theorem writeLine_encOk {s : State} (h : encOk s) : encOk (writeLine s) := { h with }

theorem setPhase_encOk {ph : Nat} {s : State} (hph : ph < s.params.ticksPerBit) (h : encOk s) :
    encOk (setPhase ph s) := { h with phase_lt := hph }

/-- Once the cursor has advanced it stands in the frame, or the session is over
(40_encoder.md R104, R106). -/
theorem advance_encOk {s : State} (ha : s.enc.active = true) (h : encOk s) :
    encOk (endIfSent (advanceEncCursor s)) := by
  have hstep := advanceEncCursor_byte_le s
  have hlt := h.byte_lt_total ha
  have htot := h.total_le
  exact {
    byte_le := by simp only [endIfSent_params, advanceEncCursor_params, endIfSent_enc_byte]; omega
    total_le := by simpa using htot
    phase_lt := by simpa using h.phase_lt
    byte_lt_total := fun hact => by
      rw [endIfSent_enc_active] at hact
      split at hact
      · cases hact
      · rename_i hne
        rw [advanceEncCursor_enc_total] at hne
        simp only [endIfSent_enc_byte, endIfSent_enc_total, advanceEncCursor_enc_total]
        omega
    buf_wf := by simpa using h.buf_wf
    buf_below := by simpa using h.buf_below }

theorem encTick_encOk {s : State} (hp : paramsValid s.params) (h : encOk s) :
    encOk (encTick s) := by
  have hph := h.phase_lt
  rcases encTick_cases s with ⟨-, ht⟩ | ⟨ha, -, ht⟩ | ⟨-, he, -, ht⟩ | ⟨-, he, -, ht⟩ <;> rw [ht]
  case inl => exact h
  case inr.inl =>
    exact setPhase_encOk (by simpa using Nat.zero_lt_of_lt hph)
      (advance_encOk ha (writeLine_encOk h))
  case inr.inr.inl => exact setPhase_encOk (by rw [writeLine_params]; omega) (writeLine_encOk h)
  case inr.inr.inr => exact setPhase_encOk (by omega) h

/-! ## The decoder keeps its half: one rule for each update -/

/-- An active session's cursor is in the frame (10_state.md R43). -/
theorem decControlOk.byte_lt {p : Params} {d : DecSession} (h : decControlOk p d)
    (ha : d.active = true) : d.byte < p.frameCap := by
  cases hd : d.state with
  | notSynchronized => exact ((decControlOk_notSynchronized hd).mp h).1
  | bitSynchronized => exact ((decControlOk_bitSynchronized hd).mp h).2
  | dataSynchronized => exact ((decControlOk_dataSynchronized hd).mp h).2.2.1
  | dataReady => simp [(decControlOk_dataReady hd).mp h] at ha

/-- An active session may take another previous edge and another count: only an armed one must have an
edge, and only one in DataSynchronized has a limit on its count (10_state.md R44 (c), (f)). -/
theorem decControlOk.update {p : Params} {d : DecSession} {e : Nat} {pe : Edge}
    (h : decControlOk p d) (ha : d.active = true) (hpe : d.state = .notSynchronized → pe ≠ .none)
    (he : d.state = .dataSynchronized → e ≤ p.watchdogTicks) :
    decControlOk p { d with elapsed := e, prevEdge := pe } := by
  cases hd : d.state with
  | notSynchronized =>
    obtain ⟨hb, -, -⟩ := (decControlOk_notSynchronized hd).mp h
    exact Iff.mpr (decControlOk_notSynchronized rfl)
      ⟨hb, fun _ => hpe hd, fun hi => by simp [ha] at hi⟩
  | bitSynchronized =>
    exact Iff.mpr (decControlOk_bitSynchronized rfl) ((decControlOk_bitSynchronized hd).mp h)
  | dataSynchronized =>
    obtain ⟨-, hlo, hhi, -⟩ := (decControlOk_dataSynchronized hd).mp h
    exact Iff.mpr (decControlOk_dataSynchronized rfl) ⟨ha, hlo, hhi, he hd⟩
  | dataReady => exact Iff.mpr (decControlOk_dataReady rfl) ((decControlOk_dataReady hd).mp h)

theorem decControlOk.prevEdge_ne_none {p : Params} {d : DecSession} (h : decControlOk p d)
    (ha : d.active = true) (hd : d.state = .notSynchronized) : d.prevEdge ≠ .none := by
  obtain ⟨-, harmed, -⟩ := (decControlOk_notSynchronized hd).mp h
  exact harmed ha

theorem decControlOk.elapsed_le {p : Params} {d : DecSession} (h : decControlOk p d)
    (hd : d.state = .dataSynchronized) : d.elapsed ≤ p.watchdogTicks := by
  obtain ⟨-, -, -, hel⟩ := (decControlOk_dataSynchronized hd).mp h
  exact hel

theorem resetDecoder_decOk {s : State} (hp : paramsValid s.params) (h : decOk s) :
    decOk (resetDecoder s) := by
  obtain ⟨-, -, -, ⟨hcap, -⟩, -, -⟩ := hp
  exact { h with
    byte_le := Nat.zero_le _
    total_eq := rfl
    elapsed_lt := Nat.two_pow_pos _
    control := ⟨Nat.lt_of_lt_of_le (Nat.succ_pos 2) hcap, nofun, fun _ => ⟨rfl, rfl⟩⟩ }

/-- `complete()` ends the session in DataReady and leaves the ranges as they are. -/
theorem complete_decOk {s : State} (hb : s.dec.byte ≤ s.params.frameCap)
    (ht : s.dec.total = s.params.frameCap) (he : s.dec.elapsed < 2 ^ s.params.cntW)
    (hw : s.dec.buf.wf) (hbelow : s.dec.buf.below s.params.frameCap) :
    decOk (complete s) :=
  ⟨hb, ht, he, (decControlOk_dataReady rfl).mpr rfl, hw, hbelow⟩

theorem edgeOfDir_ne_none (d : Dir) : edgeOfDir d ≠ .none := by
  cases d <;> decide

theorem recordEdge_decOk (d : Dir) {s : State} (ha : s.dec.active = true) (h : decOk s) :
    decOk (recordEdge d s) :=
  { h with control := h.control.update ha (fun _ => edgeOfDir_ne_none d) h.control.elapsed_le }

theorem restartCounter_decOk {s : State} (ha : s.dec.active = true) (h : decOk s) :
    decOk (restartCounter s) :=
  { h with
    elapsed_lt := Nat.two_pow_pos _
    control := h.control.update ha (h.control.prevEdge_ne_none ha) (fun _ => Nat.zero_le _) }

theorem shiftBit_decOk (d : Dir) {s : State} (ha : s.dec.active = true) (h : decOk s) :
    decOk (shiftBit d s) :=
  { restartCounter_decOk ha h with }

theorem countTick_decOk {s : State} (ha : s.dec.active = true)
    (hw : s.dec.state = .dataSynchronized →
      satInc s.params s.dec.elapsed ≤ s.params.watchdogTicks)
    (h : decOk s) : decOk (countTick s) :=
  { h with
    elapsed_lt := satInc_lt h.elapsed_lt
    control := h.control.update ha (h.control.prevEdge_ne_none ha) hw }

/-- An extracted bit goes to a byte that exists. -/
theorem extractBit_decOk (d : Dir) {s : State} (ha : s.dec.active = true)
    (h : decOk s) : decOk (extractBit d s) := by
  unfold extractBit
  split
  · exact { h with
      buf_wf := Memory.write_wf _ _ h.buf_wf
      buf_below := Memory.write_below _ h.buf_below (h.control.byte_lt ha) }
  · exact h

/-- The byte cursor moves by at most one byte, and not back. -/
theorem advanceDecCursor_byte (s : State) :
    s.dec.byte ≤ (advanceDecCursor s).dec.byte ∧
      (advanceDecCursor s).dec.byte ≤ s.dec.byte + 1 := by
  rcases advanceDecCursor_cases s with ⟨-, h⟩ | ⟨-, h⟩ <;> rw [h]
  · exact ⟨Nat.le_succ _, le_rfl⟩
  · exact ⟨le_rfl, Nat.le_succ _⟩

/-- Once the cursor has advanced it stands in the frame, or the frame is complete
(41_decoder.md R134, R135). -/
theorem advance_decOk {s : State} (hd : s.dec.state = .dataSynchronized)
    (h : decOk s) : decOk (completeIfFull (advanceDecCursor s)) := by
  obtain ⟨ha, hlo, hhi, hel⟩ := (decControlOk_dataSynchronized hd).mp h.control
  obtain ⟨hup, hone⟩ := advanceDecCursor_byte s
  have htot : (advanceDecCursor s).dec.total = s.params.frameCap := by simpa using h.total_eq
  have hw : (advanceDecCursor s).dec.buf.wf := by simpa using h.buf_wf
  have hbelow : (advanceDecCursor s).dec.buf.below s.params.frameCap := by
    simpa using h.buf_below
  have helapsed : (advanceDecCursor s).dec.elapsed < 2 ^ s.params.cntW := by
    simpa using h.elapsed_lt
  rw [← advanceDecCursor_params s] at htot hhi hel hbelow helapsed
  unfold completeIfFull
  split
  · exact complete_decOk (by omega) htot helapsed hw hbelow
  · exact ⟨by omega, htot, helapsed, Iff.mpr (decControlOk_dataSynchronized (by simpa using hd))
      ⟨by simpa using ha, by omega, by omega, by simpa using hel⟩, hw, hbelow⟩

/-! ## The decoder's operations keep its half -/

theorem decTick_decOk {s : State} (h : decOk s) : decOk (decTick s) := by
  rcases decTick_cases s with ⟨-, ht⟩ | ⟨-, -, -, ht⟩ | ⟨ha, hw, ht⟩ <;> rw [ht]
  · exact h
  · exact complete_decOk h.byte_le h.total_eq (satInc_lt h.elapsed_lt) h.buf_wf h.buf_below
  · exact countTick_decOk ha hw h

theorem edge_decOk_notSynchronized (d : Dir) {s : State} (hd : s.dec.state = .notSynchronized)
    (h : decOk s) : decOk (edge d s) := by
  obtain ⟨hb, -⟩ := (decControlOk_notSynchronized hd).mp h.control
  rcases edge_notSynchronized_cases d hd with ⟨-, ht⟩ | ⟨ha, -, ht⟩ | ⟨ha, -, ht⟩ <;> rw [ht]
  · exact { h with
      elapsed_lt := Nat.two_pow_pos _
      control := Iff.mpr (decControlOk_notSynchronized hd)
        ⟨hb, fun _ => edgeOfDir_ne_none d, nofun⟩ }
  · have hlock : decOk (lock d s) :=
      { h with control := (decControlOk_bitSynchronized rfl).mpr ⟨ha, hb⟩ }
    exact recordEdge_decOk d ha (restartCounter_decOk ha hlock)
  · exact recordEdge_decOk d ha (restartCounter_decOk ha h)

theorem edge_decOk_bitSynchronized (d : Dir) {s : State} (hp : paramsValid s.params)
    (hd : s.dec.state = .bitSynchronized) (h : decOk s) : decOk (edge d s) := by
  obtain ⟨-, -, -, ⟨hcap, -⟩, -, -⟩ := hp
  obtain ⟨ha, -⟩ := (decControlOk_bitSynchronized hd).mp h.control
  rcases edge_bitSynchronized_cases d hd with ⟨-, ht⟩ | ⟨-, -, ht⟩ | ⟨-, -, ht⟩ <;> rw [ht]
  · exact recordEdge_decOk d ha h
  · exact recordEdge_decOk d ha (shiftBit_decOk d ha h)
  · have hmatch : decOk (syncMatch (shiftBit d s)) := {
      byte_le := Nat.le_trans (Nat.le_succ 2) hcap
      total_eq := rfl
      elapsed_lt := Nat.two_pow_pos _
      control := (decControlOk_dataSynchronized rfl).mpr ⟨ha, le_rfl, hcap, Nat.zero_le _⟩
      buf_wf := storeMatch_wf _ _ h.buf_wf
      buf_below := storeMatch_below _ h.buf_below (Nat.le_trans (Nat.le_succ 2) hcap) }
    exact recordEdge_decOk d ha hmatch

theorem edge_decOk_dataSynchronized (d : Dir) {s : State}
    (hd : s.dec.state = .dataSynchronized) (h : decOk s) : decOk (edge d s) := by
  obtain ⟨ha, -⟩ := (decControlOk_dataSynchronized hd).mp h.control
  have hrec := recordEdge_decOk d ha h
  rcases edge_dataSynchronized_cases d hd with ⟨-, ht⟩ | ⟨-, ht⟩ <;> rw [ht]
  · exact hrec
  · exact advance_decOk (by simpa using hd)
      (restartCounter_decOk (by simpa using ha) (extractBit_decOk d ha hrec))

theorem edge_decOk (d : Dir) {s : State} (hp : paramsValid s.params)
    (h : decOk s) : decOk (edge d s) := by
  cases hd : s.dec.state with
  | notSynchronized => exact edge_decOk_notSynchronized d hd h
  | bitSynchronized => exact edge_decOk_bitSynchronized d hp hd h
  | dataSynchronized => exact edge_decOk_dataSynchronized d hd h
  | dataReady => rwa [edge_dataReady d hd]

/-! ## Power-on reset and the step -/

theorem powerOn_encOk {p : Params} (hp : paramsValid p) : encOk (State.powerOn p) := by
  obtain ⟨⟨-, hN⟩, -⟩ := hp
  exact {
    byte_le := Nat.zero_le _
    total_le := Nat.zero_le _
    phase_lt := Nat.lt_of_lt_of_le Nat.zero_lt_two hN
    byte_lt_total := nofun
    buf_wf := ⟨.nil, nofun⟩
    buf_below := nofun }

theorem powerOn_decOk {p : Params} (hp : paramsValid p) : decOk (State.powerOn p) := by
  obtain ⟨-, -, -, ⟨hcap, -⟩, -, -⟩ := hp
  exact {
    byte_le := Nat.zero_le _
    total_eq := rfl
    elapsed_lt := Nat.two_pow_pos _
    control := ⟨Nat.lt_of_lt_of_le (Nat.succ_pos 2) hcap, nofun, fun _ => ⟨rfl, rfl⟩⟩
    buf_wf := ⟨.nil, nofun⟩
    buf_below := nofun }

theorem powerOn_blockInv {p : Params} (hp : paramsValid p) : blockInv (State.powerOn p) :=
  (blockInv_iff _).mpr ⟨hp, powerOn_encOk hp, powerOn_decOk hp⟩

theorem encOk_ofEncoder : OfEncoder encOk := fun s t hp he h => by
  rwa [encOk, hp, he]

theorem decOk_ofDecoder : OfDecoder decOk := fun s t hp hd h => by
  rwa [decOk, hp, hd]

theorem blockInv_ofSessions : OfSessions blockInv := fun s t hp he hd h => by
  obtain ⟨hv, hse, hsd⟩ := (blockInv_iff s).mp h
  exact (blockInv_iff t).mpr
    ⟨hp ▸ hv, encOk_ofEncoder s t hp he hse, decOk_ofDecoder s t hp hd hsd⟩

theorem exec_keeps_blockInv (i : Instr) (s t : State) (h : exec i s = .next t) (hs : blockInv s) :
    blockInv t := by
  obtain ⟨hp, he, hd⟩ := (blockInv_iff s).mp hs
  refine (blockInv_iff t).mpr ⟨exec_params h ▸ hp, ?_, ?_⟩
  · exact exec_keeps_encoder encOk_ofEncoder (fun _ ho => encTick_encOk ho.1)
      (fun len payload _ ho => startEncode_encOk len payload ho.1) h he
  · exact exec_keeps_decoder decOk_ofDecoder (fun d _ hp => edge_decOk d hp)
      (fun _ _ => decTick_decOk) (fun _ hp => resetDecoder_decOk hp) h hd

/-- Settles O46: both sessions' halves hold after power-on reset and every operation keeps them. -/
theorem stepKeepsTheInvariant : Obligations.StepKeepsTheInvariant := by
  intro s t hs h
  exact step_keeps blockInv_ofSessions exec_keeps_blockInv (fun _ => powerOn_blockInv) h hs

end Sys2Proof.Machine
end

section
/-! The encoder's own invariant (10_state.md R27, 40_encoder.md R105, R106), and that every step keeps it
(O47). -/

namespace Sys2Proof.Machine

theorem encoderOk_ofEncoder : OfEncoder encoderOk := fun s t hp he h => by
  simpa only [encoderOk, hp, he] using h

theorem powerOn_encoderOk (p : Params) : encoderOk (State.powerOn p) :=
  ⟨nofun, fun _ => ⟨rfl, rfl, rfl, rfl⟩, nofun⟩

/-- A new session starts at phase 0 with the clock at 1, and the sync field is written last. -/
theorem startEncode_encoderOk (len : Nat) (payload : List Byte) {s : State}
    (hp : paramsValid s.params) : encoderOk (startEncode len payload s) := by
  obtain ⟨⟨-, hN⟩, -⟩ := hp
  refine ⟨fun _ => ?_, nofun, fun _ => ⟨Nat.le_add_left _ _, ?_, ?_⟩⟩
  · have hhalf : 0 < s.params.ticksPerBit / 2 := by omega
    simpa [Config.vclk0] using hhalf
  · simp [read_loadFrame]
  · simp [read_loadFrame]

/-- A session that the advance of the cursor ends stands on a byte boundary (40_encoder.md R106). -/
theorem advance_ends_on_byte {s : State} (hlt : s.enc.byte < s.enc.total)
    (ha : s.enc.active = true) (hoff : (endIfSent (advanceEncCursor s)).enc.active = false) :
    (advanceEncCursor s).enc.bit = 0#3 ∧ (advanceEncCursor s).enc.byte = s.enc.total := by
  have hend : (advanceEncCursor s).enc.byte = s.enc.total := by
    simpa [ha] using hoff
  refine ⟨?_, hend⟩
  rcases advanceEncCursor_cases s with ⟨-, h⟩ | ⟨-, h⟩ <;> rw [h] at hend ⊢
  exact absurd hend hlt.ne

/-- At the end-of-bit tick the clock flips back to 1, as the phase returns to the first half of a bit. -/
theorem endOfBit_encoderOk {s : State} (ho : operable s) (h : encoderOk s)
    (ha : s.enc.active = true) (hend : s.enc.phase + 1 = s.params.ticksPerBit) :
    encoderOk (setPhase 0 (endIfSent (advanceEncCursor (writeLine s)))) := by
  obtain ⟨⟨⟨-, hN⟩, -⟩, -, ⟨hlt, -⟩, -⟩ := ho
  obtain ⟨hclk, -, hsync⟩ := h
  have hlow : s.enc.vclk = false := by
    rw [hclk ha, decide_eq_false_iff_not]
    omega
  have hhalf : 0 < s.params.ticksPerBit / 2 := by omega
  refine ⟨fun _ => by simp [hlow, hhalf], fun hoff => ?_, fun _ => by simpa using hsync ha⟩
  obtain ⟨hbit, hbyte⟩ := advance_ends_on_byte (s := writeLine s) (hlt ha) ha hoff
  exact ⟨rfl, by rwa [setPhase_enc_bit, endIfSent_enc_bit], by simpa using hbyte,
    by simp [hlow, Config.vclk0]⟩

/-- While the session goes on, its clock need only follow the new phase: ENC_TICK writes neither the
buffer nor the total. -/
theorem setPhase_encoderOk {ph : Nat} {s u : State} (h : encoderOk s) (ha : s.enc.active = true)
    (hu : u = s ∨ u = writeLine s) (hclk : u.enc.vclk = decide (ph < s.params.ticksPerBit / 2)) :
    encoderOk (setPhase ph u) := by
  obtain ⟨-, -, hsync⟩ := h
  rcases hu with rfl | rfl <;>
    exact ⟨fun _ => hclk, fun hoff => by simp [ha] at hoff, fun _ => hsync ha⟩

/-- The clock flips exactly when the phase enters the other half of a bit, at the mid-bit and at the
end-of-bit tick (10_state.md R27, 40_encoder.md R104). -/
theorem encTick_encoderOk {s : State} (ho : operable s) (h : encoderOk s) :
    encoderOk (encTick s) := by
  have hclk := h.1
  rcases encTick_cases s with ⟨-, ht⟩ | ⟨ha, hend, ht⟩ | ⟨ha, -, hmid, ht⟩ | ⟨ha, -, hmid, ht⟩ <;>
    rw [ht]
  case inl => exact h
  case inr.inl => exact endOfBit_encoderOk ho h ha hend
  case inr.inr.inl =>
    have hhigh : s.enc.vclk = true := by
      rw [hclk ha, decide_eq_true_eq]
      omega
    exact setPhase_encoderOk h ha (.inr rfl) (by simp [hhigh, hmid])
  case inr.inr.inr =>
    refine setPhase_encoderOk h ha (.inl rfl) ?_
    rw [hclk ha, decide_eq_decide]
    omega

/-- Settles O47: ENC_TICK and START_ENCODE keep the encoder's invariant, and nothing else writes the
encode session. -/
theorem stepKeepsTheEncoderInvariant : Obligations.StepKeepsTheEncoderInvariant := by
  intro s t _ hs h
  exact step_keeps encoderOk_ofEncoder.ofSessions
    (fun _ _ _ => exec_keeps_encoder encoderOk_ofEncoder (fun _ => encTick_encoderOk)
      (fun len payload _ ho _ => startEncode_encoderOk len payload ho.1))
    (fun p _ => powerOn_encoderOk p) h hs

end Sys2Proof.Machine
end

section
/-! What no operation writes, and the state after power-on reset: its values and the invariants it meets
(O19, O34, O45). -/

namespace Sys2Proof.Machine

/-- Settles O19: the effect of each operation leaves the three fields alone, and so does `beginOp`. -/
theorem operationsLeaveParametersAndWrapper : Obligations.OperationsLeaveParametersAndWrapper := by
  intro i s t h
  obtain ⟨-, rfl⟩ := exec_next h
  exact ⟨effect_params i _, effect_frameReadyQ i _, effect_inputs i _⟩

/-- Settles O34: both buffers list no byte after power-on reset, so every index reads as the reset byte. -/
theorem powerOnValues : Obligations.PowerOnValues :=
  fun _ => ⟨fun i => ⟨Memory.read_nil i, Memory.read_nil i⟩, rfl⟩

/-- No frame is in `DecBuf` after power-on reset. -/
theorem powerOn_receivedFrameOk (p : Params) : receivedFrameOk (State.powerOn p) :=
  fun hf => absurd hf (by rintro (h | h) <;> cases h)

theorem reference_paramsValid : paramsValid Config.reference := by decide

/-- Settles O45: each invariant for every valid parameter set, and the block's at the reference values. -/
theorem powerOnMeetsTheInvariants : Obligations.PowerOnMeetsTheInvariants :=
  ⟨fun p hp => ⟨powerOn_blockInv hp, powerOn_encoderOk p, powerOn_receivedFrameOk p⟩,
    powerOn_blockInv reference_paramsValid⟩

end Sys2Proof.Machine
end

section
/-! The wire order of a byte: what `wire_to_byte` puts at each cursor position, and that the cursor
positions determine the byte (20_memory.md R64 to R66; O42, O43). -/

namespace Sys2Proof.Machine

/-- Bit reversal exchanges the two ends of the byte (20_memory.md R65). -/
theorem getLsbD_bitreverse8 (v : Byte) {i : Nat} (h : i < 8) :
    (bitreverse8 v).getLsbD i = v.getLsbD (7 - i) := by
  rw [bitreverse8, BitVec.getLsbD_reverse, BitVec.getMsbD_eq_getLsbD, decide_eq_true h,
    Bool.true_and]

/-- Under either order, what `wire_to_byte` answers goes on the wire as its argument, bit 7 first. -/
theorem wirebit_wireToByte (o : BitOrder) (v : Byte) (k : BitVec 3) :
    wirebit o (wireToByte o v) k = v.getLsbD (7 - k.toNat) := by
  cases o with
  | msbFirst => rfl
  | lsbFirst => exact getLsbD_bitreverse8 v k.isLt

/-- Every bit of a byte stands at some cursor position. -/
theorem exists_bitIndex_eq (o : BitOrder) {i : Nat} (h : i < 8) : ∃ k, bitIndex o k = i := by
  cases o with
  | msbFirst =>
    refine ⟨BitVec.ofNat 3 (7 - i), ?_⟩
    simp only [bitIndex, BitVec.toNat_ofNat]
    omega
  | lsbFirst => exact ⟨BitVec.ofNat 3 i, Nat.mod_eq_of_lt h⟩

/-- Two bytes that go on the wire as the same sequence are equal. -/
theorem eq_of_wirebit_eq {o : BitOrder} {a b : Byte} (h : ∀ k, wirebit o a k = wirebit o b k) :
    a = b := by
  refine BitVec.eq_of_getLsbD_eq fun i hi => ?_
  obtain ⟨k, rfl⟩ := exists_bitIndex_eq o hi
  exact h k

/-- Settles O42: the answer and `b` go on the wire as the same sequence, so they are equal. -/
theorem wireToByteInvertsTheWireOrder : Obligations.WireToByteInvertsTheWireOrder :=
  ⟨fun _ => rfl, fun v _ hi => getLsbD_bitreverse8 v hi,
    fun o _ v h => eq_of_wirebit_eq fun k => (wirebit_wireToByte o v k).trans (h k)⟩

/-- Settles O43: each sync byte goes on the wire as its half of `SYNC`, bit 7 of the half first. -/
theorem syncFieldOnTheWire : Obligations.SyncFieldOnTheWire := by
  intro p k
  have hk : 7 - k.toNat < 8 := by omega
  constructor
  · have hpos : 8 + (7 - k.toNat) = 15 - k.toNat := by omega
    rw [syncByte0, wirebit_wireToByte, BitVec.getLsbD_extractLsb', decide_eq_true hk,
      Bool.true_and, hpos]
  · rw [syncByte1, wirebit_wireToByte, BitVec.getLsbD_extractLsb', decide_eq_true hk,
      Bool.true_and, Nat.zero_add]

end Sys2Proof.Machine
end

section
/-! Operation words: which words `decode` accepts and what they stand for, and that `encodeWord` and
`encodeSide` are its inverse (30_encoding.md R87 to R94; O26, O27, O29). -/

namespace Sys2Proof

open Laws

/-! ## The fields of a word -/

theorem ofBool_argField (w : OpWord) : BitVec.ofBool (argField w) = w.extractLsb' 4 1 := by
  refine BitVec.eq_of_getLsbD_eq fun i hi => ?_
  obtain rfl : i = 0 := by omega
  simp [argField]

/-- A word is packed from four fields exactly when these are what its fields hold (30_encoding.md R87). -/
theorem packWord_eq_iff (op : BitVec 4) (arg : Bool) (len : BitVec 16) (w : OpWord) :
    packWord op arg len = w ↔
      opField w = op ∧ argField w = arg ∧ rsvField w = 0 ∧ lenField w = len := by
  constructor
  · rintro rfl
    exact ⟨opField_packWord op arg len, argField_packWord op arg len, rsvField_packWord op arg len,
      lenField_packWord op arg len⟩
  · rintro ⟨rfl, rfl, hrsv, rfl⟩
    have hzero : 0#11 = rsvField w := hrsv.symm
    rw [packWord, ofBool_argField, hzero, lenField, rsvField, opField,
      BitVec.extractLsb'_append_extractLsb'_eq_extractLsb' (start₂ := 4) (by decide),
      BitVec.extractLsb'_append_extractLsb'_eq_extractLsb' (start₂ := 5) (by decide),
      BitVec.extractLsb'_append_extractLsb'_eq_extractLsb' (start₂ := 16) (by decide)]
    exact BitVec.extractLsb'_eq_self

theorem opField_toNat (w : OpWord) : (opField w).toNat = w.toNat % 16 := by
  simp [opField, BitVec.extractLsb'_toNat]

theorem argField_eq_true_iff (w : OpWord) : argField w = true ↔ w.toNat / 2 ^ 4 % 2 = 1 := by
  rw [argField, BitVec.getLsbD, Nat.testBit_eq_decide_div_mod_eq, decide_eq_true_eq]

theorem rsvField_eq_zero_iff (w : OpWord) : rsvField w = 0 ↔ w.toNat / 2 ^ 5 % 2 ^ 11 = 0 := by
  rw [← BitVec.toNat_inj, rsvField, BitVec.extractLsb'_toNat, Nat.shiftRight_eq_div_pow]
  rfl

theorem lenField_eq_zero_iff (w : OpWord) : lenField w = 0 ↔ w.toNat / 2 ^ 16 = 0 := by
  rw [← BitVec.toNat_inj, lenField, BitVec.extractLsb'_toNat, Nat.shiftRight_eq_div_pow,
    Nat.mod_eq_of_lt (by omega)]
  rfl

theorem bitOfDir_dirOfBit (b : Bool) : bitOfDir (dirOfBit b) = b := by cases b <;> rfl
theorem dirOfBit_bitOfDir (d : Dir) : dirOfBit (bitOfDir d) = d := by cases d <;> rfl

/-! ## The accepted words -/

/-- None of the cases of 30_encoding.md R90 applies to the word and its side operand. -/
structure Accepted (payloadCap : Nat) (w : OpWord) (side : List Byte) : Prop where
  op_lt : (opField w).toNat < 6
  rsv_zero : rsvField w = 0
  arg_used : argField w = true → (opField w).toNat = 2 ∨ (opField w).toNat = 3
  len_used : lenField w ≠ 0 → (opField w).toNat = 5
  side_length : (opField w).toNat = 5 → side.length = payloadCap

theorem accepted_iff (payloadCap : Nat) (w : OpWord) (side : List Byte) :
    Accepted payloadCap w side ↔
      (opField w).toNat < 6 ∧ rsvField w = 0 ∧
        (argField w = true → (opField w).toNat = 2 ∨ (opField w).toNat = 3) ∧
        (lenField w ≠ 0 → (opField w).toNat = 5) ∧
        ((opField w).toNat = 5 → side.length = payloadCap) :=
  ⟨fun ⟨hop, hrsv, harg, hlen, hside⟩ => ⟨hop, hrsv, harg, hlen, hside⟩,
    fun ⟨hop, hrsv, harg, hlen, hside⟩ => ⟨hop, hrsv, harg, hlen, hside⟩⟩

/-- Acceptance, read on the value of the word as 30_encoding.md R87 lays out its fields. -/
theorem accepted_iff_toNat (payloadCap : Nat) (w : OpWord) (side : List Byte) :
    Accepted payloadCap w side ↔
      w.toNat % 16 < 6 ∧ w.toNat / 2 ^ 5 % 2 ^ 11 = 0 ∧
        (w.toNat / 2 ^ 4 % 2 = 1 → w.toNat % 16 = 2 ∨ w.toNat % 16 = 3) ∧
        (w.toNat / 2 ^ 16 ≠ 0 → w.toNat % 16 = 5) ∧
        (w.toNat % 16 = 5 → side.length = payloadCap) := by
  simp only [accepted_iff, opField_toNat, argField_eq_true_iff, rsvField_eq_zero_iff, ne_eq,
    lenField_eq_zero_iff]

/-- The operation that the fields of an accepted word stand for (30_encoding.md R88). -/
def operationOf (w : OpWord) (side : List Byte) : Instr :=
  match (opField w).toNat with
  | 0 => .nop
  | 1 => .tick
  | 2 => .rxSample (argField w)
  | 3 => .edge (dirOfBit (argField w))
  | 4 => .resetDecoder
  | _ => .startEncode (lenField w).toNat side

theorem unusedFieldsClear_eq_ok_iff (w : OpWord) (usesArg usesLen : Bool) (u : Unit) :
    unusedFieldsClear w usesArg usesLen = .ok u ↔
      rsvField w = 0 ∧ (argField w = true → usesArg = true) ∧
        (lenField w ≠ 0 → usesLen = true) := by
  unfold unusedFieldsClear
  split_ifs with hrsv harg hlen
  · exact iff_of_false nofun fun ⟨h, _, _⟩ => hrsv h
  · obtain ⟨hunused, hset⟩ := harg
    exact iff_of_false nofun fun ⟨_, h, _⟩ => by simp [h hset] at hunused
  · obtain ⟨hunused, hset⟩ := hlen
    exact iff_of_false nofun fun ⟨_, _, h⟩ => by simp [h hset] at hunused
  · exact iff_of_true rfl ⟨not_not.mp hrsv,
      fun hset => Bool.of_not_eq_false fun hunused => harg ⟨hunused, hset⟩,
      fun hset => Bool.of_not_eq_false fun hunused => hlen ⟨hunused, hset⟩⟩

/-- For a known operation code, acceptance is the check of the unused fields and of the side operand. -/
theorem accepted_iff_of_op {w : OpWord} {op : Nat} (hop : (opField w).toNat = op) (hlt : op < 6)
    (payloadCap : Nat) (side : List Byte) :
    Accepted payloadCap w side ↔
      unusedFieldsClear w (decide (op = 2 ∨ op = 3)) (decide (op = 5)) = .ok () ∧
        (op = 5 → side.length = payloadCap) := by
  simp only [accepted_iff, hop, hlt, unusedFieldsClear_eq_ok_iff, decide_eq_true_eq, true_and,
    and_assoc]

theorem map_const_eq_ok_iff (checked : Except DecodeError Unit) (i j : Instr) :
    (checked.map fun _ => j) = .ok i ↔ checked = .ok () ∧ i = j := by
  cases checked with
  | error e => exact iff_of_false nofun nofun
  | ok u => simp [Except.map, eq_comm]

/-- `decode` accepts the words of 30_encoding.md R90 and no others, as the operation of their fields. -/
theorem decode_eq_ok_iff (payloadCap : Nat) (w : OpWord) (side : List Byte) (i : Instr) :
    decode payloadCap w side = .ok i ↔ Accepted payloadCap w side ∧ i = operationOf w side := by
  unfold decode
  split
  case h_1 hop | h_2 hop | h_3 hop | h_4 hop | h_5 hop =>
    simp [map_const_eq_ok_iff, accepted_iff_of_op hop, operationOf, hop]
  case h_6 hop =>
    rw [accepted_iff_of_op hop (by decide)]
    cases hclear : unusedFieldsClear w false true with
    | error e => simp [hclear]
    | ok u =>
      by_cases hside : side.length = payloadCap <;>
        simp [hclear, hside, operationOf, hop, eq_comm]
  case h_7 =>
    exact iff_of_false nofun fun ⟨h, _⟩ => by have := h.op_lt; grind

theorem Accepted.argField_eq_false {payloadCap : Nat} {w : OpWord} {side : List Byte}
    (h : Accepted payloadCap w side) (h2 : (opField w).toNat ≠ 2) (h3 : (opField w).toNat ≠ 3) :
    argField w = false :=
  Bool.of_not_eq_true fun hset => (h.arg_used hset).elim h2 h3

theorem Accepted.lenField_eq_zero {payloadCap : Nat} {w : OpWord} {side : List Byte}
    (h : Accepted payloadCap w side) (h5 : (opField w).toNat ≠ 5) : lenField w = 0 :=
  not_not.mp fun hset => h5 (h.len_used hset)

/-- Decoding drops no bit of an accepted word. -/
theorem encodeWord_operationOf {payloadCap : Nat} {w : OpWord} {side : List Byte}
    (h : Accepted payloadCap w side) : encodeWord (operationOf w side) = w := by
  unfold operationOf
  split <;> rw [encodeWord, packWord_eq_iff]
  case h_1 hop | h_2 hop | h_5 hop =>
    exact ⟨BitVec.eq_of_toNat_eq hop, h.argField_eq_false (by omega) (by omega), h.rsv_zero,
      h.lenField_eq_zero (by omega)⟩
  case h_3 hop =>
    exact ⟨BitVec.eq_of_toNat_eq hop, rfl, h.rsv_zero, h.lenField_eq_zero (by omega)⟩
  case h_4 hop =>
    exact ⟨BitVec.eq_of_toNat_eq hop, (bitOfDir_dirOfBit _).symm, h.rsv_zero,
      h.lenField_eq_zero (by omega)⟩
  case h_6 =>
    have hop : (opField w).toNat = 5 := by have := h.op_lt; grind
    exact ⟨BitVec.eq_of_toNat_eq hop, h.argField_eq_false (by omega) (by omega), h.rsv_zero,
      BitVec.eq_of_toNat_eq (by simp)⟩

theorem startEncode_wellFormed_iff (len : Nat) (payload : List Byte) (payloadCap : Nat) :
    (Instr.startEncode len payload).wellFormed payloadCap = true ↔
      len < 2 ^ 16 ∧ payload.length = payloadCap := by
  rw [Instr.wellFormed, Bool.and_eq_true, decide_eq_true_eq, decide_eq_true_eq]

/-- An accepted word stands for an operation that a word and its side operand can carry. -/
theorem operationOf_wellFormed {payloadCap : Nat} {w : OpWord} {side : List Byte}
    (h : Accepted payloadCap w side) :
    (operationOf w side).wellFormed payloadCap = true := by
  unfold operationOf
  split
  case h_6 =>
    have hop : (opField w).toNat = 5 := by have := h.op_lt; grind
    exact (startEncode_wellFormed_iff ..).mpr ⟨(lenField w).isLt, h.side_length hop⟩
  all_goals rfl

theorem encodeSide_operationOf {w : OpWord} (side : List Byte) (h : (opField w).toNat = 5) :
    encodeSide (operationOf w side) = side := by
  rw [operationOf, h]
  rfl

theorem accepted_packWord_iff (payloadCap : Nat) (op : BitVec 4) (arg : Bool) (len : BitVec 16)
    (side : List Byte) :
    Accepted payloadCap (packWord op arg len) side ↔
      op.toNat < 6 ∧ (arg = true → op.toNat = 2 ∨ op.toNat = 3) ∧ (len ≠ 0 → op.toNat = 5) ∧
        (op.toNat = 5 → side.length = payloadCap) := by
  simp only [accepted_iff, opField_packWord, rsvField_packWord, argField_packWord,
    lenField_packWord, true_and]

/-- The word of a well-formed operation, with its side operand, meets 30_encoding.md R90. -/
theorem accepted_encode {i : Instr} {payloadCap : Nat} (h : i.wellFormed payloadCap = true) :
    Accepted payloadCap (encodeWord i) (encodeSide i) := by
  cases i with
  | startEncode len payload =>
    obtain ⟨-, hpayload⟩ := (startEncode_wellFormed_iff ..).mp h
    simp [encodeWord, encodeSide, accepted_packWord_iff, hpayload]
  | _ => simp [encodeWord, accepted_packWord_iff]

/-- The fields of an operation's word, with its side operand, stand for that operation. -/
theorem operationOf_encode {i : Instr} {payloadCap : Nat} (h : i.wellFormed payloadCap = true) :
    operationOf (encodeWord i) (encodeSide i) = i := by
  cases i with
  | rxSample level => simp [encodeWord, operationOf, opField_packWord, argField_packWord]
  | edge d => simp [encodeWord, operationOf, opField_packWord, argField_packWord, dirOfBit_bitOfDir]
  | startEncode len payload =>
    obtain ⟨hlen, -⟩ := (startEncode_wellFormed_iff ..).mp h
    simpa [encodeWord, encodeSide, operationOf, opField_packWord, lenField_packWord] using hlen
  | _ => simp [encodeWord, operationOf, opField_packWord]

/-! ## The statements about words -/

/-- Settles O26: the word of a well-formed operation is accepted, and its fields are the operation's. -/
theorem decodeOfEncodeIsTheOperation : Obligations.DecodeOfEncodeIsTheOperation :=
  fun _ _ h => (decode_eq_ok_iff ..).mpr ⟨accepted_encode h, (operationOf_encode h).symm⟩

/-- Settles O27: a word that decodes is accepted, so it has no bit outside the fields its operation
keeps. -/
theorem encodeOfDecodeIsTheWord : Obligations.EncodeOfDecodeIsTheWord := by
  intro w side payloadCap i hdec
  obtain ⟨hacc, rfl⟩ := (decode_eq_ok_iff ..).mp hdec
  exact ⟨encodeWord_operationOf hacc, operationOf_wellFormed hacc, encodeSide_operationOf side⟩

/-- Settles O29: the rows present fixed words, and no word listed with `side` looks at it. -/
theorem workedWordsDecode : Obligations.WorkedWordsDecode :=
  ⟨⟨rfl, rfl, rfl, rfl, rfl, rfl, rfl, rfl, rfl⟩,
    fun _ => ⟨rfl, rfl, rfl, rfl, rfl, rfl, rfl, rfl, rfl, rfl, rfl, rfl, rfl⟩⟩

end Sys2Proof
end

section
/-! What a step does with a presented word or loopback sample: which words it refuses as reserved, and
that START_ENCODE's side operand is checked again by its meaning (30_encoding.md R90, R93,
42_events_and_ports.md R164; O28, O16, O32). -/

namespace Sys2Proof.Machine

/-! ## The meaning of a well-formed operation -/

theorem exec_startEncode_of_length_ne {len : Nat} {payload : List Byte} {s : State}
    (hp : paramsValid s.params) (hl : payload.length ≠ s.params.payloadCap) :
    exec (.startEncode len payload) s = .refused .reservedWord :=
  if_pos ⟨hp, hl⟩

theorem exec_startEncode_of_length_eq {len : Nat} {payload : List Byte} {s : State}
    (hl : payload.length = s.params.payloadCap) :
    exec (.startEncode len payload) s = perform (startEncode len payload) s :=
  if_neg fun h => h.2 hl

/-- A well-formed operation is its effect behind the guard. -/
theorem exec_of_wellFormed {i : Instr} {s : State}
    (h : i.wellFormed s.params.payloadCap = true) : exec i s = perform (effect i) s := by
  cases i with
  | startEncode len payload =>
    exact exec_startEncode_of_length_eq ((startEncode_wellFormed_iff ..).mp h).2
  | _ => rfl

theorem perform_ne_reservedWord (f : State → State) (s : State) :
    perform f s ≠ .refused .reservedWord := by
  unfold perform
  split_ifs <;> nofun

/-! ## A presented word -/

theorem step_word_of_ok {s : State} {w : OpWord} {side : List Byte} {rest : List Input} {i : Instr}
    (hp : paramsValid s.params) (hin : s.inputs = .word w side :: rest)
    (hdec : decode s.params.payloadCap w side = .ok i) : step s = exec i s.dropInput := by
  simp only [step, hin, if_neg (not_not.mpr hp), hdec]

theorem step_word_of_error {s : State} {w : OpWord} {side : List Byte} {rest : List Input}
    {e : DecodeError} (hp : paramsValid s.params) (hin : s.inputs = .word w side :: rest)
    (hdec : decode s.params.payloadCap w side = .error e) : step s = .refused .reservedWord := by
  simp only [step, hin, if_neg (not_not.mpr hp), hdec]

/-- The step refuses a presented word as reserved exactly if `decode` does not accept it: what `decode`
answers is well-formed, so its meaning does not refuse the side operand a second time. -/
theorem step_word_reserved_iff {s : State} {w : OpWord} {side : List Byte} {rest : List Input}
    (hp : paramsValid s.params) (hin : s.inputs = .word w side :: rest) :
    step s = .refused .reservedWord ↔ ¬ Accepted s.params.payloadCap w side := by
  cases hdec : decode s.params.payloadCap w side with
  | ok i =>
    obtain ⟨hacc, rfl⟩ := (decode_eq_ok_iff ..).mp hdec
    refine iff_of_false ?_ (not_not.mpr hacc)
    rw [step_word_of_ok hp hin hdec, exec_of_wellFormed (s := s.dropInput)
      (operationOf_wellFormed hacc)]
    exact perform_ne_reservedWord _ _
  | error e =>
    refine iff_of_true (step_word_of_error hp hin hdec) fun hacc => ?_
    have hok := (decode_eq_ok_iff ..).mpr ⟨hacc, rfl⟩
    rw [hdec] at hok
    cases hok

/-- Settles O28: the cases are the negations of the five clauses of `Accepted`, read on the word's
value. -/
theorem reservedWordsRefusedExactly : Obligations.ReservedWordsRefusedExactly := by
  intro s w side rest hp hin
  rw [step_word_reserved_iff hp hin, accepted_iff_toNat, Params.payloadCap]
  omega

/-- Settles O16: the meaning checks the side operand before the state. -/
theorem startEncodeWrongPayloadRefused : Obligations.StartEncodeWrongPayloadRefused :=
  fun _ _ _ => exec_startEncode_of_length_ne

/-! ## A presented loopback sample -/

theorem State.dropInput_of_cons {s : State} {input : Input} {rest : List Input}
    (h : s.inputs = input :: rest) : s.dropInput = { s with inputs := rest } := by
  rw [State.dropInput, h, List.tail_cons]

theorem step_loopRx {s : State} {rest : List Input} (hin : s.inputs = .loopRx :: rest) :
    step s = exec (.rxSample s.enc.tx) s.dropInput := by
  simp only [step, hin]

/-- Settles O32: RX_SAMPLE is well-formed with every level, so it completes where the state is operable,
which does not depend on what is presented. -/
theorem loopbackSampleReadsTheLine : Obligations.LoopbackSampleReadsTheLine := by
  intro s rest ho hin
  have hdone := perform_of_operable (rxSample s.enc.tx) (s := { s with inputs := rest }) ho
  refine ⟨_, ?_, hdone⟩
  rw [step_loopRx hin, State.dropInput_of_cons hin]
  exact hdone

end Sys2Proof.Machine
end

section
/-! The codes of the two enumerations (30_encoding.md R80, R81; O44). -/

namespace Sys2Proof.Machine

theorem decodeStateOfCode_decodeStateCode (d : DecodeState) :
    decodeStateOfCode (decodeStateCode d) = d := by
  cases d <;> rfl

theorem decodeStateCode_decodeStateOfCode (c : BitVec 2) :
    decodeStateCode (decodeStateOfCode c) = c := by
  revert c
  decide

theorem edgeOfCode_edgeCode (e : Edge) : edgeOfCode (edgeCode e) = .ok e := by
  cases e <;> rfl

/-- Settles O44: the tables by evaluation, the inverses by the lemmas above. -/
theorem enumerationCodes : Obligations.EnumerationCodes :=
  ⟨rfl, rfl, rfl, rfl, decodeStateOfCode_decodeStateCode, decodeStateCode_decodeStateOfCode,
    edgeOfCode_edgeCode, rfl, rfl, rfl, rfl⟩

end Sys2Proof.Machine
end

section
/-! ENC_TICK and TICK on the encode session: one equation for every case, and what the two writes put on
the line (40_encoder.md R104, R105, R107; O2, O4). -/

namespace Sys2Proof.Machine

/-! ## ENC_TICK as a function of the encode session -/

/-- The bit cursor after the end-of-bit write (40_encoder.md R104). -/
def nextEncBit (e : EncSession) : BitVec 3 := if e.bit = 7#3 then 0#3 else e.bit + 1#3

/-- The byte cursor after the end-of-bit write (40_encoder.md R104). -/
def nextEncByte (e : EncSession) : Nat := if e.bit = 7#3 then e.byte + 1 else e.byte

/-- The encode session after ENC_TICK: it depends on nothing else but the parameters
(40_encoder.md R100, R104, R107). -/
def nextEncSession (p : Params) (e : EncSession) : EncSession :=
  if e.active = false then e
  else if e.phase + 1 = p.ticksPerBit then
    { e with
      tx := wirebit p.order (e.buf.read e.byte) e.bit ^^ e.vclk
      vclk := !e.vclk
      phase := 0
      bit := nextEncBit e
      byte := nextEncByte e
      active := decide (nextEncByte e ≠ e.total) }
  else if e.phase + 1 = p.ticksPerBit / 2 then
    { e with
      tx := wirebit p.order (e.buf.read e.byte) e.bit ^^ e.vclk
      vclk := !e.vclk
      phase := e.phase + 1 }
  else { e with phase := e.phase + 1 }

/-- The cursor advances, and the session ends when the byte cursor reaches the total. -/
theorem endIfSent_advance_enc {s : State} (ha : s.enc.active = true) :
    (endIfSent (advanceEncCursor s)).enc =
      { s.enc with
        bit := nextEncBit s.enc
        byte := nextEncByte s.enc
        active := decide (nextEncByte s.enc ≠ s.enc.total) } := by
  rcases advanceEncCursor_cases s with ⟨hb, h⟩ | ⟨hb, h⟩ <;> rw [h, endIfSent] <;> split <;>
    simp_all [nextEncBit, nextEncByte]

/-- ENC_TICK on the encode session is `nextEncSession`. -/
theorem encTick_enc (s : State) : (encTick s).enc = nextEncSession s.params s.enc := by
  unfold nextEncSession
  rcases encTick_cases s with ⟨ha, ht⟩ | ⟨ha, he, ht⟩ | ⟨ha, he, hm, ht⟩ | ⟨ha, he, hm, ht⟩ <;>
    rw [ht]
  case inl => rw [if_pos ha]
  case inr.inl =>
    rw [if_neg (by simp [ha]), if_pos he, setPhase, endIfSent_advance_enc (s := writeLine s) ha]
    rfl
  case inr.inr.inl => rw [if_neg (by simp [ha]), if_neg he, if_pos hm]; rfl
  case inr.inr.inr => rw [if_neg (by simp [ha]), if_neg he, if_neg hm]; rfl

@[simp] theorem encTick_enc_buf (s : State) : (encTick s).enc.buf = s.enc.buf := by
  rw [encTick_enc]; unfold nextEncSession; split_ifs <;> rfl
@[simp] theorem encTick_enc_total (s : State) : (encTick s).enc.total = s.enc.total := by
  rw [encTick_enc]; unfold nextEncSession; split_ifs <;> rfl

/-! ## TICK -/

@[simp] theorem tick_enc (s : State) : (tick s).enc = (encTick s).enc := decTick_enc _

theorem exec_tick_of_operable {s : State} (h : operable s) : exec .tick s = .next (tick (beginOp s)) :=
  perform_of_operable tick h

/-- An inactive decoder is not ticked, so nobody is notified. -/
theorem tick_outReady_of_idle {s : State} (h : s.dec.active = false) :
    (tick (beginOp s)).outReady = false := by
  have hidle : decTick (encTick (beginOp s)) = encTick (beginOp s) := by simp [decTick, h]
  rw [tick, hidle, encTick_outReady, beginOp_outReady]

/-- Settles O2: `encTick_enc` is its equation, and the other fields are the frame of TICK. -/
theorem tickEncoderEffect : Obligations.TickEncoderEffect := fun _ ho =>
  ⟨_, exec_tick_of_operable ho, tick_params _, tick_det _, tick_frameReadyQ _, tick_inputs _,
    tick_outReady_of_idle, (tick_enc _).trans (encTick_enc _)⟩

/-! ## The line level after a write -/

/-- In the first half of a bit the virtual clock is 1, so the mid-bit write drives the complement
(40_encoder.md R105). -/
theorem encTick_tx_midBit {s : State} (ho : operable s) (h : encoderOk s) (ha : s.enc.active = true)
    (hm : s.enc.phase + 1 = s.params.ticksPerBit / 2) : (encTick s).enc.tx = !currentBit s := by
  obtain ⟨⟨⟨-, hN⟩, -⟩, -⟩ := ho
  have hne : s.enc.phase + 1 ≠ s.params.ticksPerBit := by omega
  have hhigh : s.enc.vclk = true := by
    rw [h.1 ha, decide_eq_true_eq]
    omega
  simp [encTick_enc, nextEncSession, ha, hne, ← hm, hhigh, currentBit]

/-- In the second half of a bit the virtual clock is 0 (10_state.md R27). -/
theorem vclk_at_endOfBit {s : State} (ho : operable s) (h : encoderOk s) (ha : s.enc.active = true)
    (he : s.enc.phase + 1 = s.params.ticksPerBit) : s.enc.vclk = false := by
  obtain ⟨⟨⟨-, hN⟩, -⟩, -⟩ := ho
  rw [h.1 ha, decide_eq_false_iff_not]
  omega

/-- With the clock at 0 the end-of-bit write drives the data bit (40_encoder.md R105). -/
theorem encTick_tx_endOfBit {s : State} (ho : operable s) (h : encoderOk s)
    (ha : s.enc.active = true) (he : s.enc.phase + 1 = s.params.ticksPerBit) :
    (encTick s).enc.tx = currentBit s := by
  simp [encTick_enc, nextEncSession, ha, he, vclk_at_endOfBit ho h ha he, currentBit]

/-- Settles O4: the two writes, as TICK performs them. -/
theorem lineLevelsFollowDataBit : Obligations.LineLevelsFollowDataBit := fun s ho h ha =>
  ⟨fun hm => ⟨_, exec_tick_of_operable ho, by
      rw [tick_enc]; exact encTick_tx_midBit (s := beginOp s) ho h ha hm⟩,
    fun he => ⟨_, exec_tick_of_operable ho, by
      rw [tick_enc]; exact encTick_tx_endOfBit (s := beginOp s) ho h ha he⟩⟩

end Sys2Proof.Machine
end

section
/-! Any number of TICKs in a row: they complete, and what ENC_TICK carries from one tick to the next holds
after them (40_encoder.md R106; O5). -/

namespace Sys2Proof.Machine

/-! ## TICK keeps the state operable -/

/-- What `operable` says of the encode session: its registers are in their ranges, and an active cursor is
in the frame (10_state.md R23, R24, R26, R43). `EncSessionOk` asks for the buffer's form besides. -/
structure EncRegistersOk (p : Params) (e : EncSession) : Prop where
  byte_le : e.byte ≤ p.frameCap
  total_le : e.total ≤ p.frameCap
  phase_lt : e.phase < p.ticksPerBit
  byte_lt_total : e.active = true → e.byte < e.total

theorem encRegistersOk_of_operable {s : State} (h : operable s) : EncRegistersOk s.params s.enc := by
  obtain ⟨-, ⟨hbyte, htotal, hphase, -⟩, ⟨hlt, -⟩, -⟩ := h
  exact ⟨hbyte, htotal, hphase, hlt⟩

/-- Another encode session in its ranges leaves the state operable: no condition of 10_state.md R43 and
R44 speaks of both sessions. -/
theorem operable_of_encRegistersOk {s t : State} (h : operable s) (hp : t.params = s.params)
    (hd : t.dec = s.dec) (he : EncRegistersOk s.params t.enc) : operable t := by
  obtain ⟨hv, ⟨-, -, -, hrange⟩, ⟨-, hact⟩, hdec⟩ := h
  unfold operable valuesOk rangesOk sessionsOk decoderOk
  rw [hp, hd]
  exact ⟨hv, ⟨he.byte_le, he.total_le, he.phase_lt, hrange⟩, ⟨he.byte_lt_total, hact⟩, hdec⟩

/-- The byte cursor moves by at most one byte. -/
theorem nextEncByte_le (e : EncSession) : nextEncByte e ≤ e.byte + 1 := by
  unfold nextEncByte
  split <;> omega

theorem nextEncSession_registersOk {p : Params} {e : EncSession} (h : EncRegistersOk p e) :
    EncRegistersOk p (nextEncSession p e) := by
  have hphase := h.phase_lt
  unfold nextEncSession
  split_ifs with ha he hm
  · exact h
  · have hstep : nextEncByte e ≤ e.total :=
      (nextEncByte_le e).trans (h.byte_lt_total (by simpa using ha))
    exact ⟨hstep.trans h.total_le, h.total_le, Nat.zero_lt_of_lt hphase,
      fun hact => lt_of_le_of_ne hstep (of_decide_eq_true hact)⟩
  · exact { h with phase_lt := show e.phase + 1 < p.ticksPerBit by omega }
  · exact { h with phase_lt := show e.phase + 1 < p.ticksPerBit by omega }

theorem encTick_operable {s : State} (h : operable s) : operable (encTick s) :=
  operable_of_encRegistersOk h (encTick_params s) (encTick_dec s)
    (encTick_enc s ▸ nextEncSession_registersOk (encRegistersOk_of_operable h))

theorem decTick_operable {s : State} (h : operable s) : operable (decTick s) := by
  have ⟨hp, ⟨heb, het, hph, hdb, hdt, hel⟩, ⟨hea, hda⟩, hdec⟩ := h
  have hcount := satInc_lt hel
  rcases decTick_cases s with ⟨-, ht⟩ | ⟨-, -, -, ht⟩ | ⟨ha, hw, ht⟩ <;> rw [ht]
  · exact h
  · exact ⟨hp, ⟨heb, het, hph, hdb, hdt, hcount⟩, ⟨hea, nofun⟩, by simp [decoderOk]⟩
  · obtain ⟨hready, hsync, harmed, -, hcursor, -⟩ := hdec
    exact ⟨hp, ⟨heb, het, hph, hdb, hdt, hcount⟩, ⟨hea, hda⟩, hready, hsync, harmed,
      fun hidle => by simp [ha] at hidle, hcursor, hw⟩

theorem tick_operable {s : State} (h : operable s) : operable (tick (beginOp s)) :=
  decTick_operable (encTick_operable (s := beginOp s) h)

/-! ## Sequences of TICKs -/

/-- What ENC_TICK carries from the count `k` of ticks to `k + 1`, whatever the decoder does meanwhile,
holds after any number of TICKs. -/
theorem runOps_ticks {J : Nat → State → Prop} (hJ : ∀ k, OfEncoder (J k))
    (hstep : ∀ k s, operable s → J k s → J (k + 1) (encTick s)) {k : Nat} {s : State}
    (ho : operable s) (hs : J k s) (n : Nat) :
    ∃ u, runOps (List.replicate n .tick) s = .next u ∧ operable u ∧ J (k + n) u := by
  induction n generalizing k s with
  | zero => exact ⟨beginOp s, rfl, ho, hJ k s _ rfl rfl hs⟩
  | succ n ih =>
    have hbegin : J k (beginOp s) := hJ k s _ rfl rfl hs
    have htick : J (k + 1) (tick (beginOp s)) :=
      hJ _ _ _ (decTick_params _) (decTick_enc _) (hstep k (beginOp s) ho hbegin)
    obtain ⟨u, hu, hou, hJu⟩ := ih (tick_operable ho) htick
    refine ⟨_, (runOps_cons_next_iff ..).mpr ⟨_, u, exec_tick_of_operable ho, hu, rfl⟩, hou, ?_⟩
    rw [← Nat.add_right_comm] at hJu
    exact hJ _ u _ rfl rfl hJu

/-- TICKs leave an inactive encode session as it is (40_encoder.md R106, R107). -/
theorem runOps_ticks_of_inactive {s : State} (ho : operable s) (ha : s.enc.active = false) (n : Nat) :
    ∃ u, runOps (List.replicate n .tick) s = .next u ∧ u.enc = s.enc := by
  obtain ⟨u, hu, -, he⟩ := runOps_ticks (J := fun _ u => u.enc = s.enc) (k := 0)
    (fun _ _ _ _ he h => he.trans h)
    (fun _ u _ h => by rw [encTick_enc, nextEncSession, h, if_pos ha]) ho rfl n
  exact ⟨u, hu, he⟩

/-- Settles O5: `nextEncSession` at the last bit, and an inactive session is not ticked. -/
theorem lastBitEndsTransmission : Obligations.LastBitEndsTransmission := by
  intro s ho h ha he hbit hbyte
  have hlow := vclk_at_endOfBit ho h ha he
  have henc : (tick (beginOp s)).enc = { s.enc with
      tx := wirebit s.params.order (s.enc.buf.read s.enc.byte) s.enc.bit
      vclk := true, phase := 0, bit := 0#3, byte := s.enc.total, active := false } := by
    simp [encTick_enc, nextEncSession, nextEncBit, nextEncByte, ha, he, hbit, hbyte, hlow]
  exact ⟨_, exec_tick_of_operable ho, henc,
    runOps_ticks_of_inactive (tick_operable ho) (by rw [henc])⟩

end Sys2Proof.Machine
end

section
/-! START_ENCODE: its effect, and that a second one replaces the first (40_encoder.md R102, R103; O14,
O15). -/

namespace Sys2Proof.Machine

theorem exec_startEncode_of_operable {len : Nat} {payload : List Byte} {s : State} (h : operable s)
    (hl : payload.length = s.params.payloadCap) :
    exec (.startEncode len payload) s = .next (startEncode len payload (beginOp s)) :=
  (exec_startEncode_of_length_eq hl).trans (perform_of_operable _ h)

/-- The payload is long enough for the clamped length. -/
theorem length_take_clampLength {p : Params} {payload : List Byte} (len : Nat)
    (hl : payload.length = p.payloadCap) :
    (payload.take (clampLength p len)).length = clampLength p len := by
  rw [List.length_take, hl, clampLength]
  omega

/-- What START_ENCODE leaves at every index of `EncBuf` (40_encoder.md R102). -/
theorem read_startEncode {payload : List Byte} {s : State} (len : Nat)
    (hl : payload.length = s.params.payloadCap) (i : Nat) :
    (startEncode len payload s).enc.buf.read i =
      if i = 0 then syncByte0 s.params
      else if i = 1 then syncByte1 s.params
      else if i < 2 + clampLength s.params len then payload.getD (i - 2) 0x00#8
      else s.enc.buf.read i := by
  rw [startEncode_enc_buf, read_loadFrame, length_take_clampLength len hl]
  by_cases h0 : i = 0
  · simp [h0]
  · by_cases h1 : i = 1
    · simp [h1]
    · rw [if_neg h1, if_neg h0, if_neg h0, if_neg h1]
      refine if_ctx_congr (by omega) (fun hi => ?_) fun _ => rfl
      rw [List.getD_eq_getElem?_getD, List.getElem?_take_of_lt (by omega),
        ← List.getD_eq_getElem?_getD]
      rfl

/-- Settles O14: the state is `startEncode` of it by definition, and `read_startEncode` gives the buffer. -/
theorem startEncodeEffect : Obligations.StartEncodeEffect := fun len _ _ ho hl =>
  ⟨_, exec_startEncode_of_operable ho hl, rfl, read_startEncode len hl⟩

theorem startEncode_operable {s : State} (h : operable s) (len : Nat) (payload : List Byte) :
    operable (startEncode len payload (beginOp s)) := by
  have hfit := clampLength_add_two_le h.1 len
  have ⟨⟨⟨_, hN⟩, _⟩, _⟩ := h
  exact operable_of_encRegistersOk h rfl rfl
    ⟨Nat.zero_le _, hfit, Nat.lt_of_lt_of_le Nat.zero_lt_two hN, fun _ => Nat.succ_pos _⟩

/-- Settles O15: every register is written afresh, and so is every byte of the second frame. -/
theorem startEncodeSupersedes : Obligations.StartEncodeSupersedes := by
  intro len₁ len₂ payload₁ payload₂ s ho hl₁ hl₂
  refine ⟨_, _, _, exec_startEncode_of_operable ho hl₁,
    exec_startEncode_of_operable (startEncode_operable ho len₁ payload₁) hl₂,
    exec_startEncode_of_operable ho hl₂, rfl, fun i hi => ?_⟩
  have hframe : i < 2 + clampLength s.params len₂ := Nat.add_comm _ 2 ▸ hi
  rw [read_startEncode (s := beginOp s) len₂ hl₂,
    read_startEncode (s := beginOp (startEncode len₁ payload₁ (beginOp s))) len₂ hl₂]
  simp [hframe]

end Sys2Proof.Machine
end

section
/-! The line at every tick after a START_ENCODE (40_encoder.md R108; O49): how far the transmission has
come is read off the cursors and the phase, and each ENC_TICK carries it one tick further. -/

namespace Sys2Proof.Machine

/-! ## How far a transmission has come -/

/-- How many bits of the frame have been sent: the cursor as a position in the frame. -/
def bitsSent (e : EncSession) : Nat := 8 * e.byte + e.bit.toNat

/-- How many ticks the transmission has taken. -/
def ticksSpent (p : Params) (e : EncSession) : Nat := bitsSent e * p.ticksPerBit + e.phase

/-- The end-of-bit write brings the cursor to the next bit of the frame. -/
theorem next_bitsSent (e : EncSession) :
    8 * nextEncByte e + (nextEncBit e).toNat = bitsSent e + 1 := by
  unfold nextEncByte nextEncBit bitsSent
  split
  next h => rw [h]; rfl
  next => bv_omega

theorem bitsSent_nextEncSession {p : Params} {e : EncSession} (ha : e.active = true) :
    bitsSent (nextEncSession p e) =
      if e.phase + 1 = p.ticksPerBit then bitsSent e + 1 else bitsSent e := by
  rw [nextEncSession, if_neg (by simp [ha])]
  split_ifs
  · exact next_bitsSent e
  · rfl
  · rfl

theorem phase_nextEncSession {p : Params} {e : EncSession} (ha : e.active = true) :
    (nextEncSession p e).phase = if e.phase + 1 = p.ticksPerBit then 0 else e.phase + 1 := by
  rw [nextEncSession, if_neg (by simp [ha])]
  split_ifs <;> rfl

/-- Each ENC_TICK of an active session is one tick of the transmission, also over the end of a bit. -/
theorem ticksSpent_nextEncSession {p : Params} {e : EncSession} (ha : e.active = true) :
    ticksSpent p (nextEncSession p e) = ticksSpent p e + 1 := by
  rw [ticksSpent, bitsSent_nextEncSession ha, phase_nextEncSession ha, ticksSpent]
  split
  next h => rw [Nat.succ_mul, Nat.add_assoc _ _ 1, h, Nat.add_zero]
  next => rfl

/-! ## The level of the line -/

/-- The last level written before bit `k`: the bit before it, or the level at the start. -/
def levelBefore (idle : Bool) (bits : Nat → Bool) (k : Nat) : Bool :=
  match k with
  | 0 => idle
  | j + 1 => bits j

/-- The line while bit `k` is sent, at phase `ph`: as it was in the first half, the complement of the bit
in the second (40_encoder.md R105, R108). -/
def lineLevel (p : Params) (idle : Bool) (bits : Nat → Bool) (k ph : Nat) : Bool :=
  if ph < p.ticksPerBit / 2 then levelBefore idle bits k else !bits k

theorem lineLevel_firstHalf {p : Params} {ph : Nat} (h : ph < p.ticksPerBit / 2) (idle : Bool)
    (bits : Nat → Bool) (k : Nat) : lineLevel p idle bits k ph = levelBefore idle bits k :=
  if_pos h

theorem lineLevel_secondHalf {p : Params} {ph : Nat} (h : p.ticksPerBit / 2 ≤ ph) (idle : Bool)
    (bits : Nat → Bool) (k : Nat) : lineLevel p idle bits k ph = !bits k :=
  if_neg (Nat.not_lt.mpr h)

/-! ## The invariant of a transmission -/

/-- The transmission of a frame with the wire sequence `bits`, `n` ticks after its start on a line at
level `idle`. Once it is over, the cursors and the line stay (40_encoder.md R106). -/
structure TransmissionAt (p : Params) (total : Nat) (idle : Bool) (bits : Nat → Bool) (n : Nat)
    (s : State) : Prop where
  params_eq : s.params = p
  total_eq : s.enc.total = total
  carries : ∀ (i : Nat) (k : BitVec 3), i < total →
    wirebit p.order (s.enc.buf.read i) k = bits (8 * i + k.toNat)
  clock : encoderOk s
  spent_le : ticksSpent p s.enc ≤ n
  spent_eq : s.enc.active = true → ticksSpent p s.enc = n
  line : s.enc.tx = lineLevel p idle bits (bitsSent s.enc) s.enc.phase

section
variable {p : Params} {total n : Nat} {idle : Bool} {bits : Nat → Bool} {s : State}

theorem transmissionAt_ofEncoder (p : Params) (total : Nat) (idle : Bool) (bits : Nat → Bool)
    (n : Nat) : OfEncoder (TransmissionAt p total idle bits n) := fun s t hp he h =>
  { params_eq := hp.trans h.params_eq
    total_eq := by rw [he, h.total_eq]
    carries := by rw [he]; exact h.carries
    clock := encoderOk_ofEncoder s t hp he h.clock
    spent_le := by rw [he]; exact h.spent_le
    spent_eq := by rw [he]; exact h.spent_eq
    line := by rw [he]; exact h.line }

theorem TransmissionAt.currentBit_eq (h : TransmissionAt p total idle bits n s) (ho : operable s)
    (ha : s.enc.active = true) : currentBit s = bits (bitsSent s.enc) := by
  have hlt := (encRegistersOk_of_operable ho).byte_lt_total ha
  rw [currentBit, h.params_eq, h.carries _ _ (h.total_eq ▸ hlt), bitsSent]

/-- ENC_TICK drives what the next tick of the transmission shows on the line (40_encoder.md R105). -/
theorem TransmissionAt.line_encTick (h : TransmissionAt p total idle bits n s) (ho : operable s)
    (ha : s.enc.active = true) :
    (encTick s).enc.tx =
      lineLevel p idle bits (bitsSent (encTick s).enc) (encTick s).enc.phase := by
  obtain rfl := h.params_eq
  have hbit := h.currentBit_eq ho ha
  have ⟨⟨⟨_, hN⟩, _⟩, _⟩ := ho
  have hk := bitsSent_nextEncSession (p := s.params) ha
  have hph := phase_nextEncSession (p := s.params) ha
  rw [← encTick_enc] at hk hph
  rcases encTick_cases s with ⟨hoff, -⟩ | ⟨-, he, -⟩ | ⟨-, he, hm, -⟩ | ⟨-, he, hm, ht⟩
  case inl => simp [ha] at hoff
  case inr.inl =>
    rw [if_pos he] at hk hph
    rw [encTick_tx_endOfBit ho h.clock ha he, hk, hph, lineLevel_firstHalf (by omega), hbit,
      levelBefore]
  case inr.inr.inl =>
    rw [if_neg he] at hk hph
    rw [encTick_tx_midBit ho h.clock ha hm, hk, hph, lineLevel_secondHalf hm.ge, hbit]
  case inr.inr.inr =>
    rw [if_neg he] at hk hph
    have hsame : (encTick s).enc.tx = s.enc.tx := by rw [ht, setPhase_enc_tx]
    have hhalf : s.enc.phase + 1 < s.params.ticksPerBit / 2 ↔
        s.enc.phase < s.params.ticksPerBit / 2 := by omega
    rw [hsame, h.line, hk, hph, lineLevel, lineLevel, if_congr hhalf rfl rfl]

/-- Each ENC_TICK carries the transmission one tick further. -/
theorem TransmissionAt.next_tick (h : TransmissionAt p total idle bits n s) (ho : operable s) :
    TransmissionAt p total idle bits (n + 1) (encTick s) := by
  cases ha : s.enc.active with
  | false =>
    have hstay : encTick s = s := by rw [encTick, ha]; rfl
    rw [hstay]
    exact { h with
      spent_le := h.spent_le.trans (Nat.le_succ n)
      spent_eq := fun hact => by simp [ha] at hact }
  | true =>
    have hspent : ticksSpent p (encTick s).enc = n + 1 := by
      rw [encTick_enc, h.params_eq, ticksSpent_nextEncSession ha, h.spent_eq ha]
    exact {
      params_eq := (encTick_params s).trans h.params_eq
      total_eq := (encTick_enc_total s).trans h.total_eq
      carries := by rw [encTick_enc_buf]; exact h.carries
      clock := encTick_encoderOk ho h.clock
      spent_le := hspent.le
      spent_eq := fun _ => hspent
      line := h.line_encTick ho ha }

/-! ## What the invariant says of the line -/

/-- An active session has bits of the frame left to send. -/
theorem TransmissionAt.bitsSent_lt (h : TransmissionAt p total idle bits n s) (ho : operable s)
    (ha : s.enc.active = true) : bitsSent s.enc < 8 * total := by
  have hlt := (encRegistersOk_of_operable ho).byte_lt_total ha
  have hbit := s.enc.bit.isLt
  rw [h.total_eq] at hlt
  unfold bitsSent
  omega

/-- A session that has ended has sent every bit of the frame (40_encoder.md R106). -/
theorem TransmissionAt.bitsSent_of_ended (h : TransmissionAt p total idle bits n s)
    (ha : s.enc.active = false) : bitsSent s.enc = 8 * total ∧ s.enc.phase = 0 := by
  obtain ⟨-, hended, -⟩ := h.clock
  obtain ⟨hphase, hbit, hbyte, -⟩ := hended ha
  exact ⟨by rw [bitsSent, hbit, hbyte, h.total_eq]; rfl, hphase⟩

/-- The session is active exactly before tick `8*enc_total*N` (40_encoder.md R108). -/
theorem TransmissionAt.active_iff (h : TransmissionAt p total idle bits n s) (ho : operable s) :
    s.enc.active = true ↔ n < 8 * total * p.ticksPerBit := by
  cases ha : s.enc.active with
  | false =>
    obtain ⟨hsent, hphase⟩ := h.bitsSent_of_ended ha
    have hle := h.spent_le
    rw [ticksSpent, hsent, hphase] at hle
    exact iff_of_false (by decide) (Nat.not_lt.mpr hle)
  | true =>
    refine iff_of_true rfl ?_
    have hph := (encRegistersOk_of_operable ho).phase_lt
    rw [h.params_eq] at hph
    calc n = bitsSent s.enc * p.ticksPerBit + s.enc.phase := (h.spent_eq ha).symm
      _ < (bitsSent s.enc + 1) * p.ticksPerBit := by rw [Nat.succ_mul]; omega
      _ ≤ 8 * total * p.ticksPerBit := Nat.mul_le_mul_right _ (h.bitsSent_lt ho ha)

/-- While the session is active, the tick count determines the cursor and the phase. -/
theorem TransmissionAt.cursor_of_active {j : Nat} (h : TransmissionAt p total idle bits n s)
    (ho : operable s) (ha : s.enc.active = true) (hlo : j * p.ticksPerBit ≤ n)
    (hhi : n < (j + 1) * p.ticksPerBit) :
    bitsSent s.enc = j ∧ j * p.ticksPerBit + s.enc.phase = n := by
  have hph := (encRegistersOk_of_operable ho).phase_lt
  have hn := h.spent_eq ha
  rw [h.params_eq] at hph
  rw [ticksSpent] at hn
  have hsent : n / p.ticksPerBit = bitsSent s.enc :=
    Nat.div_eq_of_lt_le (by omega) (by rw [Nat.succ_mul]; omega)
  have hj : n / p.ticksPerBit = j := Nat.div_eq_of_lt_le hlo hhi
  rw [← hsent, hj] at hn
  exact ⟨hsent.symm.trans hj, hn⟩

theorem TransmissionAt.line_in_firstHalf (h : TransmissionAt p total idle bits n s)
    (hph : s.enc.phase < p.ticksPerBit / 2) : s.enc.tx = levelBefore idle bits (bitsSent s.enc) :=
  h.line.trans (lineLevel_firstHalf hph ..)

/-- Before the first mid-bit tick the line is as it was. -/
theorem TransmissionAt.line_before_midBit (h : TransmissionAt p total idle bits n s)
    (ho : operable s) (htotal : 0 < total) (hn : n < p.ticksPerBit / 2) : s.enc.tx = idle := by
  have hfit : 1 * p.ticksPerBit ≤ 8 * total * p.ticksPerBit :=
    Nat.mul_le_mul_right _ (by omega)
  obtain ⟨hk, hph⟩ := h.cursor_of_active (j := 0) ho ((h.active_iff ho).mpr (by omega)) (by omega)
    (by omega)
  rw [h.line_in_firstHalf (by omega), hk, levelBefore]

/-- From the mid-bit tick of bit `j` to its end-of-bit tick the line is the bit's complement. -/
theorem TransmissionAt.line_in_secondHalf {j : Nat} (h : TransmissionAt p total idle bits n s)
    (ho : operable s) (hj : j < 8 * total)
    (hlo : j * p.ticksPerBit + p.ticksPerBit / 2 ≤ n) (hhi : n < (j + 1) * p.ticksPerBit) :
    s.enc.tx = !bits j := by
  have hfit : (j + 1) * p.ticksPerBit ≤ 8 * total * p.ticksPerBit := Nat.mul_le_mul_right _ hj
  obtain ⟨hk, hph⟩ := h.cursor_of_active (j := j) ho ((h.active_iff ho).mpr (by omega)) (by omega)
    hhi
  rw [h.line, lineLevel_secondHalf (by omega), hk]

/-- From the end-of-bit tick of bit `j` to the next mid-bit tick, and after the last bit for good, the
line is the bit. -/
theorem TransmissionAt.line_after_bit {j : Nat} (h : TransmissionAt p total idle bits n s)
    (ho : operable s) (hj : j < 8 * total) (hlo : (j + 1) * p.ticksPerBit ≤ n)
    (hhi : n < (j + 1) * p.ticksPerBit + p.ticksPerBit / 2 ∨ j + 1 = 8 * total) :
    s.enc.tx = bits j := by
  have hactive := h.active_iff ho
  have hmul : (j + 1 + 1) * p.ticksPerBit = (j + 1) * p.ticksPerBit + p.ticksPerBit :=
    Nat.succ_mul ..
  suffices hpos : bitsSent s.enc = j + 1 ∧ s.enc.phase < p.ticksPerBit / 2 by
    obtain ⟨hk, hph⟩ := hpos
    rw [h.line_in_firstHalf hph, hk, levelBefore]
  cases ha : s.enc.active with
  | true =>
    have hn := hactive.mp ha
    have hmore : n < (j + 1) * p.ticksPerBit + p.ticksPerBit / 2 :=
      hhi.resolve_right fun hlast => by rw [hlast] at hlo; omega
    obtain ⟨hk, hph⟩ := h.cursor_of_active (j := j + 1) ho ha hlo (by omega)
    exact ⟨hk, by omega⟩
  | false =>
    obtain ⟨hk, hph⟩ := h.bitsSent_of_ended ha
    have hn : 8 * total * p.ticksPerBit ≤ n := by simpa [ha] using hactive
    have hlast : j + 1 = 8 * total := by
      by_contra hne
      have hfit : (j + 1 + 1) * p.ticksPerBit ≤ 8 * total * p.ticksPerBit :=
        Nat.mul_le_mul_right _ (by omega)
      have hmore := hhi.resolve_right hne
      omega
    have ⟨⟨⟨_, hN⟩, _⟩, _⟩ := ho
    rw [h.params_eq] at hN
    exact ⟨hk.trans hlast.symm, by omega⟩

end

/-! ## The frame that START_ENCODE stores -/

theorem frameBit_payload (p : Params) (payload : List Byte) (i : Nat) (k : BitVec 3) :
    frameBit p payload (8 * (i + 2) + k.toNat) = wirebit p.order (payload.getD i 0x00#8) k := by
  have hk := k.isLt
  have hbyte : (8 * (i + 2) + k.toNat - 16) / 8 = i := by omega
  have hbit : (8 * (i + 2) + k.toNat - 16) % 8 = k.toNat := by omega
  rw [frameBit, if_neg (by omega), hbyte, hbit, BitVec.ofNat_toNat, BitVec.setWidth_eq]

/-- The stored frame goes on the wire as the bits of the frame, the sync field first (30_encoding.md
R83, 40_encoder.md R102). -/
theorem wirebit_startEncode {payload : List Byte} {s : State} {len i : Nat}
    (hl : payload.length = s.params.payloadCap) (hi : i < clampLength s.params len + 2)
    (k : BitVec 3) :
    wirebit s.params.order ((startEncode len payload s).enc.buf.read i) k =
      frameBit s.params payload (8 * i + k.toNat) := by
  have hk := k.isLt
  obtain ⟨hsync0, hsync1⟩ := syncFieldOnTheWire s.params k
  rw [read_startEncode len hl]
  match i with
  | 0 => rw [if_pos rfl, hsync0, frameBit, if_pos (by omega)]; congr 1; omega
  | 1 => rw [if_neg (by decide), if_pos rfl, hsync1, frameBit, if_pos (by omega)]; congr 1; omega
  | m + 2 =>
    rw [if_neg (by omega), if_neg (by omega), if_pos (by omega), frameBit_payload]
    rfl

/-- START_ENCODE begins the transmission of its frame. -/
theorem transmissionAt_startEncode {len : Nat} {payload : List Byte} {s : State}
    (hp : paramsValid s.params) (hl : payload.length = s.params.payloadCap) :
    TransmissionAt s.params (clampLength s.params len + 2) s.enc.tx (frameBit s.params payload) 0
      (startEncode len payload (beginOp s)) := by
  have ⟨⟨_, hN⟩, _⟩ := hp
  have hstart : bitsSent (startEncode len payload (beginOp s)).enc = 0 := rfl
  have hspent : ticksSpent s.params (startEncode len payload (beginOp s)).enc = 0 := by
    rw [ticksSpent, hstart, Nat.zero_mul]
    rfl
  exact {
    params_eq := rfl
    total_eq := rfl
    carries := fun i k hi => wirebit_startEncode (s := beginOp s) hl hi k
    clock := startEncode_encoderOk len payload hp
    spent_le := hspent.le
    spent_eq := fun _ => hspent
    line := by
      rw [hstart, startEncode_enc_phase, lineLevel_firstHalf (by omega), levelBefore]
      rfl }

/-- Settles O49: every TICK carries the transmission one tick further, and the clauses read off where it
stands at tick `n`. -/
theorem encoderLineTiming : Obligations.EncoderLineTiming := by
  intro s t len payload ho h
  obtain ⟨-, hl, rfl⟩ := (exec_startEncode_next_iff len payload s t).mp h
  refine ⟨rfl, fun n => ?_⟩
  obtain ⟨u, hu, hou, hat⟩ := runOps_ticks (transmissionAt_ofEncoder _ _ _ _)
    (fun _ _ ho h => h.next_tick ho) (startEncode_operable ho len payload)
    (transmissionAt_startEncode ho.1 hl) n
  rw [Nat.zero_add] at hat
  exact ⟨u, hu, hat.line_before_midBit hou (Nat.succ_pos _),
    fun j hj => ⟨hat.line_in_secondHalf hou hj, hat.line_after_bit hou hj⟩, hat.active_iff hou⟩

end Sys2Proof.Machine
end

section
/-! Each half of the block depends on that half alone (40_encoder.md R100, 41_decoder.md R120; O20): the
encode session after an operation is a function of the one before, and the decoder's operations commute
with erasing the encoder. -/

namespace Sys2Proof.Machine

/-! ## The encoder's half -/

/-- Equal parameters and encode sessions give equal encode sessions. -/
theorem effect_enc_congr (i : Instr) {s t : State} (hp : s.params = t.params) (he : s.enc = t.enc) :
    (effect i s).enc = (effect i t).enc := by
  cases i with
  | tick =>
    show (tick s).enc = (tick t).enc
    rw [tick_enc, tick_enc, encTick_enc, encTick_enc, hp, he]
  | startEncode len payload =>
    show (startEncode len payload s).enc = (startEncode len payload t).enc
    rw [startEncode, startEncode, hp, he]
  | nop => exact he
  | rxSample level => simpa [effect] using he
  | edge d => simpa [effect] using he
  | resetDecoder => exact he

/-! ## The decoder's half -/

/-- The state with everything erased that no decoder operation reads: the encode session, the clocked
wrapper's register and the inputs. -/
def eraseEncoder (s : State) : State :=
  { s with enc := EncSession.powerOn, frameReadyQ := false, inputs := [] }

theorem eraseEncoder_eq_iff (s t : State) :
    eraseEncoder s = eraseEncoder t ↔
      s.params = t.params ∧ s.dec = t.dec ∧ s.det = t.det ∧ s.outReady = t.outReady := by
  simp [eraseEncoder]

/-- An operation of the decoder alone: it reads and writes nothing of what `eraseEncoder` erases. -/
abbrev DecoderOnly (f : State → State) : Prop := Function.Commute eraseEncoder f

theorem decoderOnly_ite {c : State → Prop} [DecidablePred c] {f g : State → State}
    (hc : ∀ s, c (eraseEncoder s) ↔ c s) (hf : DecoderOnly f) (hg : DecoderOnly g) :
    DecoderOnly fun s => if c s then f s else g s := fun s => by
  show eraseEncoder (if c s then f s else g s) =
    if c (eraseEncoder s) then f (eraseEncoder s) else g (eraseEncoder s)
  rw [apply_ite eraseEncoder, hf, hg, if_congr (hc s) rfl rfl]

theorem decoderOnly_id : DecoderOnly fun s => s := fun _ => rfl

theorem decoderOnly_recordEdge (d : Dir) : DecoderOnly (recordEdge d) := fun _ => rfl

theorem decoderOnly_edgeNotSynchronized (d : Dir) : DecoderOnly (edgeNotSynchronized d) :=
  decoderOnly_ite (fun _ => Iff.rfl)
    (decoderOnly_ite (fun _ => Iff.rfl) (fun _ => rfl) fun _ => rfl) fun _ => rfl

theorem decoderOnly_edgeBitSynchronized (d : Dir) : DecoderOnly (edgeBitSynchronized d) := by
  have hmatch : DecoderOnly matchIfSync :=
    decoderOnly_ite (fun _ => Iff.rfl) (fun _ => rfl) decoderOnly_id
  have hshift : DecoderOnly (shiftBit d) := fun _ => rfl
  exact decoderOnly_ite (fun _ => Iff.rfl)
    ((decoderOnly_recordEdge d).comp_right (hmatch.comp_right hshift)) (decoderOnly_recordEdge d)

theorem decoderOnly_edgeDataSynchronized (d : Dir) : DecoderOnly (edgeDataSynchronized d) := by
  have hextract : DecoderOnly (extractBit d) :=
    decoderOnly_ite (fun _ => Iff.rfl) (fun _ => rfl) decoderOnly_id
  have hrestart : DecoderOnly restartCounter := fun _ => rfl
  have hadvance : DecoderOnly advanceDecCursor :=
    decoderOnly_ite (fun _ => Iff.rfl) (fun _ => rfl) fun _ => rfl
  have hfull : DecoderOnly completeIfFull :=
    decoderOnly_ite (fun _ => Iff.rfl) (fun _ => rfl) decoderOnly_id
  exact decoderOnly_ite (fun _ => Iff.rfl)
    (hfull.comp_right <| hadvance.comp_right <| hrestart.comp_right <|
      hextract.comp_right (decoderOnly_recordEdge d)) (decoderOnly_recordEdge d)

theorem decoderOnly_edge (d : Dir) : DecoderOnly (edge d) := fun s => by
  have hstate : (eraseEncoder s).dec.state = s.dec.state := rfl
  unfold edge
  rw [hstate]
  cases s.dec.state with
  | dataReady => rfl
  | notSynchronized => exact decoderOnly_edgeNotSynchronized d s
  | bitSynchronized => exact decoderOnly_edgeBitSynchronized d s
  | dataSynchronized => exact decoderOnly_edgeDataSynchronized d s

theorem decoderOnly_rxSample (level : Bool) : DecoderOnly (rxSample level) := by
  have hrecord : DecoderOnly (recordLevel level) := fun _ => rfl
  exact decoderOnly_ite (fun _ => Iff.rfl)
    (decoderOnly_ite (fun _ => Iff.rfl)
      ((decoderOnly_edge (dirOfLevel level)).comp_right hrecord) decoderOnly_id)
    fun _ => rfl

theorem decoderOnly_decTick : DecoderOnly decTick := by
  have hcount : DecoderOnly countTick := fun _ => rfl
  have hexpired : DecoderOnly completeIfExpired :=
    decoderOnly_ite (fun _ => Iff.rfl) (fun _ => rfl) decoderOnly_id
  exact decoderOnly_ite (fun _ => Iff.rfl) (hexpired.comp_right hcount) decoderOnly_id

/-- ENC_TICK writes nothing but what is erased. -/
theorem eraseEncoder_encTick (s : State) : eraseEncoder (encTick s) = eraseEncoder s :=
  (eraseEncoder_eq_iff ..).mpr
    ⟨encTick_params s, encTick_dec s, encTick_det s, encTick_outReady s⟩

/-- States that differ only in what is erased differ only in that after an operation. -/
theorem effect_eraseEncoder_congr (i : Instr) {s t : State} (h : eraseEncoder s = eraseEncoder t) :
    eraseEncoder (effect i s) = eraseEncoder (effect i t) := by
  have hcongr : ∀ {f}, DecoderOnly f → eraseEncoder (f s) = eraseEncoder (f t) := fun hf => by
    rw [hf s, hf t, h]
  cases i with
  | tick =>
    show eraseEncoder (decTick (encTick s)) = eraseEncoder (decTick (encTick t))
    rw [decoderOnly_decTick, decoderOnly_decTick, eraseEncoder_encTick, eraseEncoder_encTick, h]
  | startEncode len payload => exact h
  | nop => exact h
  | rxSample level => exact hcongr (decoderOnly_rxSample level)
  | edge d => exact hcongr (decoderOnly_edge d)
  | resetDecoder => exact hcongr (f := resetDecoder) fun _ => rfl

/-- Settles O20: the two congruences, from the states in which the operation starts. -/
theorem encoderAndDecoderAreIndependent : Obligations.EncoderAndDecoderAreIndependent := by
  intro i s₁ s₂ t₁ t₂ hp h₁ h₂
  obtain ⟨-, rfl⟩ := exec_next h₁
  obtain ⟨-, rfl⟩ := exec_next h₂
  refine ⟨effect_enc_congr i (s := beginOp s₁) (t := beginOp s₂) hp, fun hd hdet => ?_⟩
  have hbegin := (eraseEncoder_eq_iff (beginOp s₁) (beginOp s₂)).mpr ⟨hp, hd, hdet, rfl⟩
  exact ((eraseEncoder_eq_iff ..).mp (effect_eraseEncoder_congr i hbegin)).2

end Sys2Proof.Machine
end

section
/-! EDGE, RX_SAMPLE, DEC_TICK and RESET_DECODER as equations: one for each decode state and each outcome
(41_decoder.md R121 to R143; O3, O6 to O13). -/

namespace Sys2Proof.Machine

/-! ## EDGE -/

theorem exec_edge_of_operable (d : Dir) {s : State} (h : operable s) :
    exec (.edge d) s = .next (edge d (beginOp s)) :=
  perform_of_operable _ h

theorem edge_of_idle (d : Dir) {s : State} (hs : s.dec.state = .notSynchronized)
    (ha : s.dec.active = false) : edge d s = recordEdge d (arm s) := by
  rcases edge_notSynchronized_cases d hs with ⟨-, h⟩ | ⟨hact, -⟩ | ⟨hact, -⟩
  · exact h
  all_goals simp [ha] at hact

theorem edge_of_locks {d : Dir} {s : State} (hs : s.dec.state = .notSynchronized)
    (ha : s.dec.active = true) (hl : locks d s = true) :
    edge d s = recordEdge d (restartCounter (lock d s)) := by
  rcases edge_notSynchronized_cases d hs with ⟨hidle, -⟩ | ⟨-, -, h⟩ | ⟨-, hno, -⟩
  · simp [ha] at hidle
  · exact h
  · simp [hl] at hno

theorem edge_of_not_locks {d : Dir} {s : State} (hs : s.dec.state = .notSynchronized)
    (ha : s.dec.active = true) (hl : ¬ locks d s = true) :
    edge d s = recordEdge d (restartCounter s) := by
  rcases edge_notSynchronized_cases d hs with ⟨hidle, -⟩ | ⟨-, hyes, -⟩ | ⟨-, -, h⟩
  · simp [ha] at hidle
  · exact absurd hyes hl
  · exact h

theorem not_qualifies_of_lt {s : State} (h : s.dec.elapsed < s.params.syncThreshold) :
    ¬ qualifies s = true := by
  rw [qualifies_iff]
  omega

/-- Behind the bit lock an edge below the threshold is noise (41_decoder.md R124). -/
theorem edge_of_noise (d : Dir) {s : State}
    (hs : s.dec.state = .bitSynchronized ∨ s.dec.state = .dataSynchronized)
    (he : s.dec.elapsed < s.params.syncThreshold) : edge d s = recordEdge d s := by
  have hq := not_qualifies_of_lt he
  rcases hs with hs | hs
  · rcases edge_bitSynchronized_cases d hs with ⟨-, h⟩ | ⟨hyes, -⟩ | ⟨hyes, -⟩
    · exact h
    all_goals exact absurd hyes hq
  · rcases edge_dataSynchronized_cases d hs with ⟨-, h⟩ | ⟨hyes, -⟩
    · exact h
    · exact absurd hyes hq

theorem edge_of_mismatch {d : Dir} {s : State} (hs : s.dec.state = .bitSynchronized)
    (he : s.params.syncThreshold ≤ s.dec.elapsed)
    (hm : shiftIn s.dec.shift (bitval d) ≠ s.params.sync) :
    edge d s = recordEdge d (shiftBit d s) := by
  have hq := (qualifies_iff s).mpr he
  rcases edge_bitSynchronized_cases d hs with ⟨hno, -⟩ | ⟨-, -, h⟩ | ⟨-, hyes, -⟩
  · simp [hq] at hno
  · exact h
  · exact absurd hyes hm

theorem edge_of_match {d : Dir} {s : State} (hs : s.dec.state = .bitSynchronized)
    (he : s.params.syncThreshold ≤ s.dec.elapsed)
    (hm : shiftIn s.dec.shift (bitval d) = s.params.sync) :
    edge d s = recordEdge d (syncMatch (shiftBit d s)) := by
  have hq := (qualifies_iff s).mpr he
  rcases edge_bitSynchronized_cases d hs with ⟨hno, -⟩ | ⟨-, hno, -⟩ | ⟨-, -, h⟩
  · simp [hq] at hno
  · exact absurd hm hno
  · exact h

theorem edge_of_extract (d : Dir) {s : State} (hs : s.dec.state = .dataSynchronized)
    (he : s.params.syncThreshold ≤ s.dec.elapsed) :
    edge d s =
      completeIfFull (advanceDecCursor (restartCounter (extractBit d (recordEdge d s)))) := by
  have hq := (qualifies_iff s).mpr he
  rcases edge_dataSynchronized_cases d hs with ⟨hno, -⟩ | ⟨-, h⟩
  · simp [hq] at hno
  · exact h

/-- The seed, as the spec writes it: `0b01` for a rising edge, `0b10` for a falling one
(41_decoder.md R128). -/
theorem lockSeed_bitval (d : Dir) :
    lockSeed (bitval d) = if d = .rising then 0x0001#16 else 0x0002#16 := by
  cases d <;> decide

/-- The shift, as arithmetic on the register. -/
theorem shiftIn_bitval (x : SyncWord) (d : Dir) :
    shiftIn x (bitval d) = x <<< 1 ||| (if d = .rising then 1#16 else 0#16) := by
  refine BitVec.eq_of_getLsbD_eq fun i hi => ?_
  rw [shiftIn_getLsbD x _ i hi, BitVec.getLsbD_or, BitVec.getLsbD_shiftLeft]
  cases d <;> cases i <;> simp [bitval] <;> omega

/-- Settles O7: arming writes these three fields. -/
theorem edgeArmsIdleDecoder : Obligations.EdgeArmsIdleDecoder := by
  intro d s ho hs ha
  rw [exec_edge_of_operable d ho, edge_of_idle d (s := beginOp s) hs ha]
  rfl

/-- Settles O8: `locks` is the condition, and both outcomes restart the counter. -/
theorem edgeInArmedNotSynchronized : Obligations.EdgeInArmedNotSynchronized := by
  intro d s ho hs ha
  have hlocks := (locks_iff d (beginOp s)).trans and_assoc
  rw [exec_edge_of_operable d ho, ← lockSeed_bitval]
  split
  next hl => rw [edge_of_locks (s := beginOp s) hs ha (hlocks.mpr hl)]; rfl
  next hl => rw [edge_of_not_locks (s := beginOp s) hs ha (mt hlocks.mp hl)]; rfl

/-- Settles O9: the three outcomes of an edge behind the bit lock, with what the match stores. -/
theorem edgeInBitSynchronized : Obligations.EdgeInBitSynchronized := by
  intro d s ho hs
  rw [exec_edge_of_operable d ho, ← shiftIn_bitval]
  split_ifs with he hm
  · rw [edge_of_noise d (s := beginOp s) (.inl hs) he]
    rfl
  · rw [edge_of_mismatch (s := beginOp s) hs (Nat.le_of_not_lt he) hm]
    rfl
  · have hmatch : shiftIn s.dec.shift (bitval d) = s.params.sync := not_not.mp hm
    rw [edge_of_match (s := beginOp s) hs (Nat.le_of_not_lt he) hmatch]
    refine ⟨_, rfl, ?_, fun i => ?_⟩
    · rw [← hmatch]
      rfl
    · have hread := read_storeMatch s.params s.params.sync s.dec.buf i
      rw [← hmatch] at hread ⊢
      refine hread.trans ?_
      match i with
      | 0 => rfl
      | 1 => rfl
      | i + 2 =>
        have hin : 2 ≤ i + 2 ∧ i + 2 < 2 + (s.params.frameCap - 2) ↔ i + 2 < s.params.frameCap := by
          omega
        rw [if_congr hin rfl rfl]
        rfl

/-- Two states with the same fields are the same. -/
theorem State.eq_of_fields {s t : State} (hp : s.params = t.params) (he : s.enc = t.enc)
    (hd : s.dec = t.dec) (hdet : s.det = t.det) (hq : s.frameReadyQ = t.frameReadyQ)
    (ho : s.outReady = t.outReady) (hi : s.inputs = t.inputs) : s = t := by
  cases s
  cases t
  simp_all

/-- The state after an extraction, as its fields (41_decoder.md R134, R135). -/
theorem extract_eq (d : Dir) {s : State} {full : Bool} (ho : operable s)
    (hs : s.dec.state = .dataSynchronized)
    (hfull : full = decide (s.dec.bit = 7#3 ∧ s.dec.byte + 1 = s.params.frameCap)) :
    completeIfFull (advanceDecCursor (restartCounter (extractBit d (recordEdge d (beginOp s))))) =
      { s with
        dec := {
          buf := (extractBit d s).dec.buf
          bit := if s.dec.bit = 7#3 then 0#3 else s.dec.bit + 1#3
          byte := if s.dec.bit = 7#3 then s.dec.byte + 1 else s.dec.byte
          total := s.params.frameCap
          active := !full
          state := if full = true then .dataReady else .dataSynchronized
          shift := s.dec.shift
          elapsed := 0
          prevEdge := if full = true then .none else edgeOfDir d }
        outReady := full } := by
  obtain ⟨-, ⟨-, -, -, -, htotal, -⟩, -, -, hact, -, -, hcursor, -⟩ := ho
  have ha : s.dec.active = true := hact (.inr hs)
  obtain ⟨-, hlt⟩ := hcursor hs
  have hend : ((if s.dec.bit = 7#3 then s.dec.byte + 1 else s.dec.byte) = s.params.frameCap) ↔
      full = true := by
    rw [hfull, decide_eq_true_eq]
    split_ifs with hb
    · simp [hb]
    · simp [hb, hlt.ne]
  apply State.eq_of_fields <;> simp [htotal, hend]
  apply DecSession.ext <;> simp [htotal, hend, hs, ha]

/-- An extraction writes no byte but the one at the cursor. -/
theorem read_extractBit_other (d : Dir) {s : State} {i : Nat} (h : i ≠ s.dec.byte) :
    (extractBit d s).dec.buf.read i = s.dec.buf.read i := by
  rw [extractBit_dec_buf]
  split
  · exact Memory.read_write_other _ _ h
  · rfl

/-- An extraction sets the bit at the cursor for a rising edge and leaves the others
(41_decoder.md R134). -/
theorem wirebit_extractBit (d : Dir) (s : State) (k : BitVec 3) :
    wirebit s.params.order ((extractBit d s).dec.buf.read s.dec.byte) k =
      if k = s.dec.bit ∧ d = .rising then true
      else wirebit s.params.order (s.dec.buf.read s.dec.byte) k := by
  rw [extractBit_dec_buf]
  cases d with
  | falling => simp [bitval]
  | rising =>
    rw [bitval, if_pos rfl, Memory.read_write_same, wirebit_setbit]
    by_cases h : k = s.dec.bit <;> simp [h]

/-- Settles O10: noise, or the extraction, which writes one bit of one byte. -/
theorem edgeInDataSynchronized : Obligations.EdgeInDataSynchronized := by
  intro d s full ho hs hfull
  rw [exec_edge_of_operable d ho]
  split
  next he =>
    rw [edge_of_noise d (s := beginOp s) (.inr hs) he]
    rfl
  next he =>
    rw [edge_of_extract d (s := beginOp s) hs (Nat.le_of_not_lt he), extract_eq d ho hs hfull]
    exact ⟨_, rfl, rfl, fun i hi => read_extractBit_other d hi, wirebit_extractBit d s⟩

/-! ## RX_SAMPLE -/

theorem exec_rxSample_of_operable (level : Bool) {s : State} (h : operable s) :
    exec (.rxSample level) s = .next (rxSample level (beginOp s)) :=
  perform_of_operable _ h

theorem rxSample_of_unseen {level : Bool} {s : State} (h : s.det.rxSeen = false) :
    rxSample level s = initDetector level s := by
  simp [rxSample, h]

theorem rxSample_of_eq {level : Bool} {s : State} (hseen : s.det.rxSeen = true)
    (h : level = s.det.rxPrev) : rxSample level s = s := by
  simp [rxSample, hseen, h]

theorem rxSample_of_ne {level : Bool} {s : State} (hseen : s.det.rxSeen = true)
    (h : level ≠ s.det.rxPrev) :
    rxSample level s = edge (dirOfLevel level) (recordLevel level s) := by
  simp [rxSample, hseen, h]

/-- No condition of `operable` speaks of the edge detector. -/
theorem recordLevel_operable (level : Bool) {s : State} (h : operable s) :
    operable (recordLevel level s) := h

/-- Settles O6: the three cases of RX_SAMPLE; EDGE reads and writes nothing of the detector. -/
theorem rxSampleEffect : Obligations.RxSampleEffect := by
  intro level s ho
  rw [exec_rxSample_of_operable level ho]
  split
  next hunseen =>
    rw [rxSample_of_unseen (s := beginOp s) hunseen]
    rfl
  next hunseen =>
    have hseen : s.det.rxSeen = true := by simpa using hunseen
    split
    next heq =>
      rw [rxSample_of_eq (s := beginOp s) hseen heq]
      rfl
    next hne =>
      have hdet : { rxPrev := level, rxSeen := true } = (recordLevel level s).det := by
        rw [← hseen]
        rfl
      rw [rxSample_of_ne (s := beginOp s) hseen hne, hdet]
      exact ⟨_, rfl, exec_edge_of_operable _ (recordLevel_operable level ho), edge_det _ _,
        fun hready => by rw [edge_dataReady _ (s := recordLevel level (beginOp s)) hready]; rfl⟩

/-! ## RESET_DECODER -/

theorem exec_resetDecoder_of_operable {s : State} (h : operable s) :
    exec .resetDecoder s = .next (resetDecoder (beginOp s)) :=
  perform_of_operable _ h

/-- Settles O12: `resetDecoder` writes these registers and keeps `DecBuf`. -/
theorem resetDecoderEffect : Obligations.ResetDecoderEffect := by
  intro s ho
  rw [exec_resetDecoder_of_operable ho]
  rfl

/-- A reset decoder meets the invariants, and the encode session is as it was. -/
theorem resetDecoder_operable {s : State} (h : operable s) : operable (resetDecoder s) := by
  obtain ⟨hp, ⟨heb, het, hph, -⟩, ⟨hea, -⟩, -⟩ := h
  exact ⟨hp, ⟨heb, het, hph, Nat.zero_le _, rfl, Nat.two_pow_pos _⟩, ⟨hea, nofun⟩,
    by simp [decoderOk]⟩

/-- Settles O13: the second reset writes what the registers hold already. -/
theorem resetDecoderIsIdempotent : Obligations.ResetDecoderIsIdempotent := fun s ho =>
  ⟨_, exec_resetDecoder_of_operable ho,
    exec_resetDecoder_of_operable (resetDecoder_operable (s := beginOp s) ho)⟩

/-! ## DEC_TICK -/

theorem decTick_of_inactive {s : State} (h : s.dec.active = false) : decTick s = s := by
  simp [decTick, h]

theorem decTick_of_expired {s : State} (ha : s.dec.active = true)
    (hs : s.dec.state = .dataSynchronized)
    (hw : s.params.watchdogTicks < satInc s.params s.dec.elapsed) :
    decTick s = complete (countTick s) := by
  rcases decTick_cases s with ⟨hidle, -⟩ | ⟨-, -, -, h⟩ | ⟨-, hno, -⟩
  · simp [ha] at hidle
  · exact h
  · exact absurd hw (Nat.not_lt.mpr (hno hs))

theorem decTick_of_counting {s : State} (ha : s.dec.active = true)
    (hw : s.dec.state = .dataSynchronized →
      satInc s.params s.dec.elapsed ≤ s.params.watchdogTicks) :
    decTick s = countTick s := by
  rcases decTick_cases s with ⟨hidle, -⟩ | ⟨-, hs, hyes, -⟩ | ⟨-, -, h⟩
  · simp [ha] at hidle
  · exact absurd hyes (Nat.not_lt.mpr (hw hs))
  · exact h

/-- ENC_TICK reads and writes nothing of the decoder, so TICK does to it what DEC_TICK does. -/
theorem tick_eq_decTick (s : State) :
    (tick s).dec = (decTick s).dec ∧ (tick s).outReady = (decTick s).outReady := by
  have herase : eraseEncoder (tick s) = eraseEncoder (decTick s) := by
    rw [tick, decoderOnly_decTick, eraseEncoder_encTick, ← decoderOnly_decTick]
  obtain ⟨-, hdec, -, hready⟩ := (eraseEncoder_eq_iff ..).mp herase
  exact ⟨hdec, hready⟩

/-- Settles O3: DEC_TICK counts, and completes where the new count exceeds the watchdog's limit. -/
theorem tickDecoderEffect : Obligations.TickDecoderEffect := by
  rintro s counted ho rfl
  obtain ⟨hdec, hready⟩ := tick_eq_decTick (beginOp s)
  refine ⟨_, exec_tick_of_operable ho, ?_⟩
  rw [hdec, hready]
  cases ha : s.dec.active with
  | false => simp [decTick_of_inactive (s := beginOp s) ha]
  | true =>
    rw [if_neg (by decide), ← satInc]
    split
    next h =>
      rw [decTick_of_expired (s := beginOp s) ha h.1 h.2]
      exact ⟨rfl, iff_of_true rfl ⟨rfl, h⟩⟩
    next h =>
      rw [decTick_of_counting (s := beginOp s) ha fun hs => Nat.le_of_not_lt fun hw => h ⟨hs, hw⟩]
      exact ⟨rfl, iff_of_false (by simp) fun hall => h hall.2⟩

/-- Settles O11: DataReady has no arm in EDGE, and an inactive session is not ticked. -/
theorem dataReadyIgnoresEdgeAndTick : Obligations.DataReadyIgnoresEdgeAndTick := by
  intro s ho hs
  have ⟨_, _, _, hready, _⟩ := ho
  have hidle : s.dec.active = false := hready hs
  refine ⟨fun d => ?_, _, exec_tick_of_operable ho, ?_, tick_outReady_of_idle hidle⟩
  · rw [exec_edge_of_operable d ho, edge_dataReady d (s := beginOp s) hs]
    rfl
  · rw [(tick_eq_decTick (beginOp s)).1, decTick_of_inactive (s := beginOp s) hidle, beginOp_dec]


end Sys2Proof.Machine
end

section
/-! The decoder as a state machine: after every operation the decode state is the one that the table of
41_decoder.md R145 gives, and the only transition that notifies is the one from DataSynchronized to
DataReady (R146; O21, O22). -/

namespace Sys2Proof.Machine

/-! ## The table, read by operation -/

theorem nextDecodeState_of_performsEdge {i : Instr} {s : State} {d : Dir}
    (h : performsEdge i s = some d) : nextDecodeState i s = nextDecodeState (.edge d) s := by
  have hi : i ≠ .resetDecoder := by
    rintro rfl
    cases h
  have hd : performsEdge (.edge d) s = some d := rfl
  cases hs : s.dec.state <;> simp [nextDecodeState, hi, h, hd, hs]

theorem nextDecodeState_of_no_event (i : Instr) {s : State} (hr : i ≠ .resetDecoder)
    (ht : i ≠ .tick) (h : performsEdge i s = none) : nextDecodeState i s = s.dec.state := by
  cases hs : s.dec.state <;> simp [nextDecodeState, hr, ht, h, hs]

theorem nextDecodeState_tick (s : State) :
    nextDecodeState .tick s =
      if s.dec.state = .dataSynchronized ∧ s.params.watchdogTicks < s.dec.elapsed + 1 then
        .dataReady
      else s.dec.state := by
  have h : performsEdge .tick s = none := rfl
  cases hs : s.dec.state <;> simp [nextDecodeState, h, hs]

/-! ## EDGE -/

theorem edge_dec_state_notSynchronized (d : Dir) {s : State} (hs : s.dec.state = .notSynchronized) :
    (edge d s).dec.state = nextDecodeState (.edge d) s := by
  have hd : performsEdge (.edge d) s = some d := rfl
  have hlocks := (locks_iff d s).trans and_assoc
  cases ha : s.dec.active with
  | false => simp [edge_of_idle d hs ha, nextDecodeState, hd, hs, ha]
  | true =>
    by_cases hl : locks d s = true
    · obtain ⟨hprev, halt, he⟩ := hlocks.mp hl
      simp [edge_of_locks hs ha hl, nextDecodeState, hd, hs, ha, hprev, halt, he]
    · have hno := mt hlocks.mpr hl
      simp [edge_of_not_locks hs ha hl, nextDecodeState, hd, hs, ha, hno]

theorem edge_dec_state_bitSynchronized (d : Dir) {s : State} (hs : s.dec.state = .bitSynchronized) :
    (edge d s).dec.state = nextDecodeState (.edge d) s := by
  have hd : performsEdge (.edge d) s = some d := rfl
  rcases Nat.lt_or_ge s.dec.elapsed s.params.syncThreshold with he | he
  · simp [edge_of_noise d (.inl hs) he, nextDecodeState, hd, hs, he]
  · by_cases hm : shiftIn s.dec.shift (bitval d) = s.params.sync
    · simp [edge_of_match hs he hm, nextDecodeState, hd, hs, he, ← shiftIn_bitval, hm]
    · simp [edge_of_mismatch hs he hm, nextDecodeState, hd, hs, ← shiftIn_bitval, hm]

theorem edge_dec_state_dataSynchronized (d : Dir) {s : State} (ho : operable s)
    (hs : s.dec.state = .dataSynchronized) :
    (edge d (beginOp s)).dec.state = nextDecodeState (.edge d) s := by
  have hd : performsEdge (.edge d) s = some d := rfl
  rcases Nat.lt_or_ge s.dec.elapsed s.params.syncThreshold with he | he
  · simp [edge_of_noise d (s := beginOp s) (.inr hs) he, nextDecodeState, hd, hs, he]
  · simp [edge_of_extract d (s := beginOp s) hs he, extract_eq d ho hs rfl, nextDecodeState, hd, hs,
      he]

/-- EDGE makes the table's transition. -/
theorem edge_dec_state (d : Dir) {s : State} (ho : operable s) :
    (edge d (beginOp s)).dec.state = nextDecodeState (.edge d) s := by
  cases hs : s.dec.state with
  | notSynchronized => exact edge_dec_state_notSynchronized d (s := beginOp s) hs
  | bitSynchronized => exact edge_dec_state_bitSynchronized d (s := beginOp s) hs
  | dataSynchronized => exact edge_dec_state_dataSynchronized d ho hs
  | dataReady =>
    rw [edge_dataReady d (s := beginOp s) hs]
    simp [nextDecodeState, hs]

/-! ## TICK -/

/-- Within the watchdog's limit the counter is not saturated. -/
theorem satInc_of_le_watchdog {p : Params} {x : Nat} (hp : paramsValid p) (h : x ≤ p.watchdogTicks) :
    satInc p x = x + 1 := by
  obtain ⟨-, -, ⟨-, hw⟩, -⟩ := hp
  exact satInc_of_lt (by omega)

/-- Behind the bit lock the session is active (10_state.md R44). -/
theorem active_of_operable {s : State} (ho : operable s)
    (hs : s.dec.state = .bitSynchronized ∨ s.dec.state = .dataSynchronized) :
    s.dec.active = true := by
  obtain ⟨-, -, -, -, hact, -⟩ := ho
  exact hact hs

/-- In DataSynchronized the count is within the watchdog's limit (10_state.md R44). -/
theorem elapsed_le_of_operable {s : State} (ho : operable s)
    (hs : s.dec.state = .dataSynchronized) : s.dec.elapsed ≤ s.params.watchdogTicks := by
  obtain ⟨-, -, -, -, -, -, -, -, hel⟩ := ho
  exact hel hs

theorem elapsed_lt_of_operable {s : State} (ho : operable s) :
    s.dec.elapsed < 2 ^ s.params.cntW := by
  obtain ⟨-, ⟨-, -, -, -, -, hel⟩, -⟩ := ho
  exact hel

theorem satInc_of_operable {s : State} (ho : operable s) (hs : s.dec.state = .dataSynchronized) :
    satInc s.params s.dec.elapsed = s.dec.elapsed + 1 :=
  satInc_of_le_watchdog ho.1 (elapsed_le_of_operable ho hs)

/-- TICK makes the table's transition: in DataSynchronized the session is active and its counter is not
saturated. -/
theorem tick_dec_state {s : State} (ho : operable s) :
    (tick (beginOp s)).dec.state = nextDecodeState .tick s := by
  rw [(tick_eq_decTick _).1, nextDecodeState_tick]
  by_cases hs : s.dec.state = .dataSynchronized
  · have ha := active_of_operable ho (.inr hs)
    have hcount := satInc_of_operable ho hs
    by_cases hw : s.params.watchdogTicks < s.dec.elapsed + 1
    · rw [decTick_of_expired (s := beginOp s) ha hs (by simpa [hcount] using hw), if_pos ⟨hs, hw⟩]
      rfl
    · rw [decTick_of_counting (s := beginOp s) ha fun _ => by simpa [hcount] using hw,
        if_neg fun h => hw h.2]
      rfl
  · rw [if_neg fun h => hs h.1]
    cases ha : s.dec.active with
    | false => rw [decTick_of_inactive (s := beginOp s) ha]; rfl
    | true => rw [decTick_of_counting (s := beginOp s) ha fun h => absurd h hs]; rfl

/-! ## Every operation -/

/-- Settles O21: EDGE and TICK make the table's transition, RX_SAMPLE makes it by the EDGE it performs, and
the other operations but RESET_DECODER leave the decode session alone. -/
theorem decodeStateTransitions : Obligations.DecodeStateTransitions := by
  intro i s t h
  obtain ⟨ho, rfl⟩ := exec_next h
  cases i with
  | tick => exact tick_dec_state ho
  | edge d => exact edge_dec_state d ho
  | resetDecoder => rfl
  | nop => exact (nextDecodeState_of_no_event .nop nofun nofun rfl).symm
  | startEncode len payload =>
    exact (nextDecodeState_of_no_event (.startEncode len payload) nofun nofun rfl).symm
  | rxSample level =>
    show (rxSample level (beginOp s)).dec.state = _
    have hsame : performsEdge (.rxSample level) s = none →
        s.dec.state = nextDecodeState (.rxSample level) s :=
      fun hno => (nextDecodeState_of_no_event (.rxSample level) nofun nofun hno).symm
    rcases rxSample_cases level (beginOp s) with ⟨hunseen, h⟩ | ⟨-, heq, h⟩ | ⟨hseen, hne, h⟩ <;>
      rw [h]
    · exact hsame (if_neg fun hs => by simp [show s.det.rxSeen = false from hunseen] at hs)
    · exact hsame (if_neg fun hs => hs.2 heq)
    · rw [nextDecodeState_of_performsEdge (i := .rxSample level) (s := s) (if_pos ⟨hseen, hne⟩)]
      exact edge_dec_state _ (recordLevel_operable level ho)

/-! ## The notification -/

/-- From `s` to `t` the block notifies exactly on the transition from DataSynchronized to DataReady. -/
def NotifiesOnCompletion (s t : State) : Prop :=
  t.outReady = true ↔ s.dec.state = .dataSynchronized ∧ t.dec.state = .dataReady

theorem notifiesOnCompletion_of_silent {s t : State} (hr : t.outReady = false)
    (hs : t.dec.state = .dataReady → s.dec.state ≠ .dataSynchronized) : NotifiesOnCompletion s t :=
  iff_of_false (by simp [hr]) fun h => hs h.2 h.1

/-- An update that leaves the decode state alone makes no transition. -/
theorem notifiesOnCompletion_of_same_state {s t : State} (hr : t.outReady = false)
    (hs : t.dec.state = s.dec.state) : NotifiesOnCompletion s t :=
  notifiesOnCompletion_of_silent hr fun h => by rw [← hs, h]; decide

theorem edge_notifiesOnCompletion (d : Dir) {s : State} (hr : s.outReady = false) :
    NotifiesOnCompletion s (edge d s) := by
  cases hs : s.dec.state with
  | dataReady =>
    rw [edge_dataReady d hs]
    exact notifiesOnCompletion_of_same_state hr rfl
  | notSynchronized =>
    refine notifiesOnCompletion_of_silent ?_ fun _ => by simp [hs]
    rcases edge_notSynchronized_cases d hs with ⟨-, h⟩ | ⟨-, -, h⟩ | ⟨-, -, h⟩ <;> simp [h, hr]
  | bitSynchronized =>
    refine notifiesOnCompletion_of_silent ?_ fun _ => by simp [hs]
    rcases edge_bitSynchronized_cases d hs with ⟨-, h⟩ | ⟨-, -, h⟩ | ⟨-, -, h⟩ <;> simp [h, hr]
  | dataSynchronized =>
    rcases edge_dataSynchronized_cases d hs with ⟨-, h⟩ | ⟨-, h⟩ <;> rw [h]
    · exact notifiesOnCompletion_of_same_state hr rfl
    · simp [NotifiesOnCompletion, hs, hr]

theorem tick_notifiesOnCompletion {s : State} (hr : s.outReady = false) :
    NotifiesOnCompletion s (tick s) := by
  obtain ⟨hdec, hready⟩ := tick_eq_decTick s
  rw [NotifiesOnCompletion, hdec, hready]
  rcases decTick_cases s with ⟨-, h⟩ | ⟨-, hs, -, h⟩ | ⟨-, -, h⟩ <;> rw [h]
  · exact notifiesOnCompletion_of_same_state hr rfl
  · exact iff_of_true rfl ⟨hs, rfl⟩
  · exact notifiesOnCompletion_of_same_state hr rfl

/-- Settles O22: only EDGE and DEC_TICK complete a frame, and they do it by `complete()`. -/
theorem notificationExactlyOnCompletion : Obligations.NotificationExactlyOnCompletion := by
  intro i s t h
  obtain ⟨-, rfl⟩ := exec_next h
  show NotifiesOnCompletion (beginOp s) (effect i (beginOp s))
  cases i with
  | tick => exact tick_notifiesOnCompletion rfl
  | edge d => exact edge_notifiesOnCompletion d rfl
  | resetDecoder => exact notifiesOnCompletion_of_silent rfl nofun
  | nop => exact notifiesOnCompletion_of_same_state rfl rfl
  | startEncode len payload => exact notifiesOnCompletion_of_same_state rfl rfl
  | rxSample level =>
    show NotifiesOnCompletion (beginOp s) (rxSample level (beginOp s))
    rcases rxSample_cases level (beginOp s) with ⟨-, h⟩ | ⟨-, -, h⟩ | ⟨-, -, h⟩ <;> rw [h]
    · exact notifiesOnCompletion_of_same_state rfl rfl
    · exact notifiesOnCompletion_of_same_state rfl rfl
    · exact edge_notifiesOnCompletion (s := recordLevel level (beginOp s)) _ rfl

end Sys2Proof.Machine
end

section
/-! The elapsed-tick counter under TICKs alone: it counts while the session is active, and in
DataSynchronized the watchdog ends the frame (41_decoder.md R140 to R142; O24, O25). -/

namespace Sys2Proof.Machine

/-- A TICK that only counts. -/
theorem tick_of_counting {s : State} (ha : s.dec.active = true)
    (hw : s.dec.state = .dataSynchronized →
      satInc s.params s.dec.elapsed ≤ s.params.watchdogTicks) :
    (tick (beginOp s)).dec = { s.dec with elapsed := satInc s.params s.dec.elapsed } ∧
      (tick (beginOp s)).outReady = false := by
  obtain ⟨hdec, hready⟩ := tick_eq_decTick (beginOp s)
  rw [hdec, hready, decTick_of_counting (s := beginOp s) ha hw]
  exact ⟨rfl, rfl⟩

/-- A TICK that completes the frame by the watchdog. -/
theorem tick_of_expired {s : State} (ha : s.dec.active = true) (hs : s.dec.state = .dataSynchronized)
    (hw : s.params.watchdogTicks < satInc s.params s.dec.elapsed) :
    (tick (beginOp s)).dec = (complete (countTick s)).dec ∧
      (tick (beginOp s)).outReady = true := by
  obtain ⟨hdec, hready⟩ := tick_eq_decTick (beginOp s)
  rw [hdec, hready, decTick_of_expired (s := beginOp s) ha hs hw]
  exact ⟨rfl, rfl⟩

/-- Saturating once and at the end is saturating at the end. -/
theorem min_satInc_add (p : Params) (x n : Nat) :
    min (satInc p x + n) (2 ^ p.cntW - 1) = min (x + (n + 1)) (2 ^ p.cntW - 1) := by
  unfold satInc
  split <;> omega

/-- TICKs of an active session count, and in DataSynchronized they do nothing else within the watchdog's
limit. -/
theorem runOps_ticks_counting {s : State} (ho : operable s) (ha : s.dec.active = true) (n : Nat)
    (hw : s.dec.state = .dataSynchronized → s.dec.elapsed + n ≤ s.params.watchdogTicks) :
    ∃ t, runOps (List.replicate n .tick) s = .next t ∧ t.outReady = false ∧
      t.dec = { s.dec with elapsed := min (s.dec.elapsed + n) (2 ^ s.params.cntW - 1) } := by
  induction n generalizing s with
  | zero =>
    have hel := elapsed_lt_of_operable ho
    refine ⟨beginOp s, rfl, rfl, ?_⟩
    rw [Nat.add_zero, Nat.min_eq_left (by omega), beginOp_dec]
  | succ n ih =>
    have hlimit : s.dec.state = .dataSynchronized →
        satInc s.params s.dec.elapsed + n ≤ s.params.watchdogTicks := fun hs => by
      have := hw hs
      rw [satInc_of_operable ho hs]
      omega
    obtain ⟨hdec, hready⟩ := tick_of_counting ha fun hs => Nat.le_of_add_right_le (hlimit hs)
    obtain ⟨t, ht, hquiet, htdec⟩ := ih (tick_operable ho) (by simp only [hdec, ha])
      (by simpa only [hdec, tick_params, beginOp_params] using hlimit)
    refine ⟨_, (runOps_cons_next_iff ..).mpr ⟨_, t, exec_tick_of_operable ho, ht, rfl⟩, ?_, ?_⟩
    · rw [hready, hquiet]
      rfl
    · simp only [htdec, hdec, tick_params, beginOp_params, min_satInc_add]

/-- Settles O24: outside DataSynchronized nothing limits the count. -/
theorem counterSaturatesWithoutWatchdog : Obligations.CounterSaturatesWithoutWatchdog :=
  fun _ n ho ha hs => runOps_ticks_counting ho ha n fun h => absurd h hs

/-- In DataSynchronized the TICK after `m` more, at the watchdog's limit, completes the frame. -/
theorem runOps_ticks_expire {s : State} {m : Nat} (ho : operable s)
    (hs : s.dec.state = .dataSynchronized) (hm : s.dec.elapsed + m = s.params.watchdogTicks) :
    ∃ t, runOps (List.replicate (m + 1) .tick) s = .next t ∧ t.dec.state = .dataReady ∧
      t.dec.elapsed = s.params.watchdogTicks + 1 ∧ t.outReady = true := by
  have ha := active_of_operable ho (.inr hs)
  have hcount := satInc_of_operable ho hs
  induction m generalizing s with
  | zero =>
    obtain ⟨hdec, hready⟩ := tick_of_expired ha hs (by omega)
    refine ⟨_, (runOps_cons_next_iff ..).mpr ⟨_, _, exec_tick_of_operable ho, rfl, rfl⟩, ?_⟩
    simp [hdec, hready, hcount, ← hm]
  | succ m ih =>
    obtain ⟨hdec, -⟩ := tick_of_counting ha fun _ => by omega
    have ht := tick_operable ho
    have hts : (tick (beginOp s)).dec.state = .dataSynchronized := by simp only [hdec, hs]
    obtain ⟨t, hrun, hstate, hel, hready⟩ := ih ht hts
      (by simp only [hdec, tick_params, beginOp_params, hcount]; omega)
      (active_of_operable ht (.inr hts)) (satInc_of_operable ht hts)
    rw [tick_params, beginOp_params] at hel
    exact ⟨_, (runOps_cons_next_iff ..).mpr ⟨_, t, exec_tick_of_operable ho, hrun, rfl⟩, hstate, hel,
      by rw [hready, Bool.or_true]⟩

/-- Settles O25: within the watchdog's limit the counter is not saturated. -/
theorem watchdogEndsDataSynchronized : Obligations.WatchdogEndsDataSynchronized := by
  intro s ho hs
  have hle := elapsed_le_of_operable ho hs
  have ⟨⟨_, _, ⟨_, hw⟩, _⟩, _⟩ := ho
  refine ⟨fun k hk => ?_, ?_⟩
  · obtain ⟨t, ht, hready, hdec⟩ :=
      runOps_ticks_counting ho (active_of_operable ho (.inr hs)) k fun _ => hk
    exact ⟨t, ht, by rw [hdec, Nat.min_eq_left (by omega)], hready⟩
  · rw [Nat.sub_add_comm hle]
    exact runOps_ticks_expire ho hs (by omega)

end Sys2Proof.Machine
end

section
/-! The decoder on an ideal frame (41_decoder.md R147): what it holds once `k` bits of the frame have been
received, and what the two edges of a bit, the ticks between them and the watchdog do to that. -/

namespace Sys2Proof.Machine

/-! ## What the decoder holds -/

/-- `DecBuf` holds the first `k` bits of the wire sequence `bits` and zeros behind them, and the cursor
stands behind them (41_decoder.md R132, R134). -/
structure HoldsFrame (p : Params) (bits : Nat → Bool) (k : Nat) (d : DecSession) : Prop where
  cursor : 8 * d.byte + d.bit.toNat = k
  stored : ∀ (i : Nat) (j : BitVec 3), i < p.frameCap →
    wirebit p.order (d.buf.read i) j = (decide (8 * i + j.toNat < k) && bits (8 * i + j.toNat))

/-- Where the decoder stands once `k` bits of the frame have been received, `r` ticks after the centre edge
of the last one: not armed or armed by the pre-edge, armed by the centre edge of bit 0, locked, or behind
the sync match (41_decoder.md R147 (a) to (e)). -/
inductive ReceptionStage (p : Params) (bits : Nat → Bool) (k r : Nat) (d : DecSession) : Prop where
  | idle (first : k = 0) (state : d.state = .notSynchronized) (inactive : d.active = false)
      (edge : d.prevEdge = .none) (age : d.elapsed = 0)
  | armed (first : k = 0) (state : d.state = .notSynchronized) (active : d.active = true)
      (edge : d.prevEdge ≠ .none) (age : d.elapsed + p.ticksPerBit / 2 ≤ r)
  | alternating (second : k = 1) (state : d.state = .notSynchronized) (active : d.active = true)
      (edge : d.prevEdge = edgeOfDir (dirOfLevel (bits 0))) (age : d.elapsed = r)
  | locked (lower : 2 ≤ k) (upper : k < 16) (state : d.state = .bitSynchronized)
      (active : d.active = true) (shift : d.shift = p.sync >>> (16 - k)) (age : d.elapsed = r)
  | matched (lower : 16 ≤ k) (state : d.state = .dataSynchronized) (active : d.active = true)
      (shift : d.shift = p.sync) (age : d.elapsed = r) (frame : HoldsFrame p bits k d)

/-- The reception of a frame, with the ranges of the registers that the stage does not fix. -/
structure Reception (p : Params) (bits : Nat → Bool) (k r : Nat) (d : DecSession) : Prop where
  byte_lt : d.byte < p.frameCap
  total_eq : d.total = p.frameCap
  stage : ReceptionStage p bits k r d

/-- A frame of `k` bits is complete. -/
structure Received (p : Params) (bits : Nat → Bool) (k : Nat) (d : DecSession) : Prop where
  state : d.state = .dataReady
  frame : HoldsFrame p bits k d

section
variable {p : Params} {bits : Nat → Bool} {k r : Nat} {d : DecSession}

theorem Reception.state_ne_dataReady (h : Reception p bits k r d) : d.state ≠ .dataReady := by
  obtain ⟨-, -, hstage⟩ := h
  cases hstage <;> simp [*]

theorem Reception.elapsed_le (h : Reception p bits k r d) : d.elapsed ≤ r := by
  obtain ⟨-, -, hstage⟩ := h
  cases hstage <;> omega

/-- Within the watchdog's limit the registers meet the decoder's invariants (10_state.md R43, R44). -/
theorem Reception.control (h : Reception p bits k r d) (hr : r ≤ p.watchdogTicks) :
    decControlOk p d := by
  have hel := h.elapsed_le
  obtain ⟨hbyte, -, hstage⟩ := h
  cases hstage with
  | idle _ hs ha hpe he =>
    exact (decControlOk_notSynchronized hs).mpr ⟨hbyte, by simp [ha], fun _ => ⟨hpe, he⟩⟩
  | armed _ hs ha hpe _ =>
    exact (decControlOk_notSynchronized hs).mpr ⟨hbyte, fun _ => hpe, by simp [ha]⟩
  | alternating _ hs ha hpe _ =>
    exact (decControlOk_notSynchronized hs).mpr
      ⟨hbyte, fun _ => hpe ▸ edgeOfDir_ne_none _, by simp [ha]⟩
  | locked _ _ hs ha _ _ => exact (decControlOk_bitSynchronized hs).mpr ⟨ha, hbyte⟩
  | matched hlo hs ha _ _ hf =>
    have hcursor := hf.cursor
    have hbit := d.bit.isLt
    exact (decControlOk_dataSynchronized hs).mpr ⟨ha, by omega, hbyte, by omega⟩

/-- The idle decoder of R147 has received no bit. -/
theorem Reception.of_idle (hb : d.byte < p.frameCap) (ht : d.total = p.frameCap)
    (hs : d.state = .notSynchronized) (ha : d.active = false)
    (hidle : d.prevEdge = .none ∧ d.elapsed = 0) : Reception p bits 0 r d :=
  ⟨hb, ht, .idle rfl hs ha hidle.1 hidle.2⟩

end

/-- A state whose decoder is receiving a frame is operable with any encode session that is. -/
theorem operable_of_reception {bits : Nat → Bool} {k r : Nat} {s t : State} (ho : operable s)
    (hp : t.params = s.params) (he : t.enc = s.enc) (h : Reception s.params bits k r t.dec)
    (hr : r ≤ s.params.watchdogTicks) : operable t := by
  have ⟨hv, ⟨heb, het, hph, _⟩, ⟨hea, _⟩, _⟩ := ho
  have ⟨_, _, ⟨_, hw⟩, _⟩ := hv
  have hel := h.elapsed_le
  have htotal := h.total_eq
  rw [← hp] at htotal
  have hcontrol := h.control hr
  rw [← hp] at hcontrol
  obtain ⟨hda, hdec, -⟩ := (decControlOk_iff htotal).mp hcontrol
  unfold operable valuesOk rangesOk sessionsOk
  rw [hp, he]
  exact ⟨hv, ⟨heb, het, hph, h.byte_lt.le, h.total_eq, by omega⟩, ⟨hea, hda⟩, hdec⟩

/-! ## The ticks between the edges -/

theorem HoldsFrame.of_fields {p : Params} {bits : Nat → Bool} {k : Nat} {d e : DecSession}
    (h : HoldsFrame p bits k d) (hbuf : e.buf = d.buf) (hbyte : e.byte = d.byte)
    (hbit : e.bit = d.bit) : HoldsFrame p bits k e :=
  ⟨by rw [hbyte, hbit]; exact h.cursor, by rw [hbuf]; exact h.stored⟩

/-- One tick later, in an active session. -/
theorem Reception.count {p : Params} {bits : Nat → Bool} {k r : Nat} {d : DecSession}
    (h : Reception p bits k r d) (ha : d.active = true) :
    Reception p bits k (r + 1) { d with elapsed := d.elapsed + 1 } := by
  refine ⟨h.byte_lt, h.total_eq, ?_⟩
  cases h.stage with
  | idle _ _ hi => simp [ha] at hi
  | armed hk hs ha hpe he => exact .armed hk hs ha hpe (by show d.elapsed + 1 + _ ≤ _; omega)
  | alternating hk hs ha hpe he => exact .alternating hk hs ha hpe (congrArg (· + 1) he)
  | locked hlo hhi hs ha hsh he => exact .locked hlo hhi hs ha hsh (congrArg (· + 1) he)
  | matched hlo hs ha hsh he hf =>
    exact .matched hlo hs ha hsh (congrArg (· + 1) he) (hf.of_fields rfl rfl rfl)

/-- A TICK within the watchdog's limit. -/
theorem Reception.after_tick {bits : Nat → Bool} {k r : Nat} {s : State}
    (h : Reception s.params bits k r s.dec) (hp : paramsValid s.params)
    (hr : r < s.params.watchdogTicks) :
    Reception s.params bits k (r + 1) (tick (beginOp s)).dec := by
  have hel := h.elapsed_le
  cases ha : s.dec.active with
  | true =>
    have hcount : satInc s.params s.dec.elapsed = s.dec.elapsed + 1 :=
      satInc_of_le_watchdog hp (by omega)
    obtain ⟨hdec, -⟩ := tick_of_counting ha fun _ => by omega
    rw [hdec, hcount]
    exact h.count ha
  | false =>
    rw [(tick_eq_decTick _).1, decTick_of_inactive (s := beginOp s) ha]
    refine ⟨h.byte_lt, h.total_eq, ?_⟩
    cases h.stage with
    | idle hk hs hi hpe he => exact .idle hk hs hi hpe he
    | armed _ _ hact => simp [ha] at hact
    | alternating _ _ hact => simp [ha] at hact
    | locked _ _ _ hact => simp [ha] at hact
    | matched _ _ hact => simp [ha] at hact

/-- The TICK after the watchdog's limit completes the frame (41_decoder.md R141). -/
theorem Reception.after_expired_tick {bits : Nat → Bool} {k : Nat} {s : State}
    (h : Reception s.params bits k s.params.watchdogTicks s.dec) (hp : paramsValid s.params)
    (hk : 16 ≤ k) :
    Received s.params bits k (tick (beginOp s)).dec ∧ (tick (beginOp s)).outReady = true := by
  cases h.stage with
  | idle hk' => omega
  | armed hk' => omega
  | alternating hk' => omega
  | locked _ hk' => omega
  | matched _ hs ha _ he hf =>
    have hcount := satInc_of_le_watchdog hp he.le
    obtain ⟨hdec, hready⟩ := tick_of_expired ha hs (by omega)
    rw [hdec]
    exact ⟨⟨rfl, hf.of_fields rfl rfl rfl⟩, hready⟩

/-! ## The boundary edge -/

/-- An edge in the middle of a bit's time: it arms an idle decoder (41_decoder.md R147 (a)), and it is
noise for one that is locked (R147 (c)). -/
theorem Reception.boundaryEdge {bits : Nat → Bool} {k : Nat} {s : State} (d : Dir)
    (h : Reception s.params bits k (s.params.ticksPerBit / 2) s.dec) (hp : paramsValid s.params)
    (hk : k ≠ 1) :
    Reception s.params bits k (s.params.ticksPerBit / 2) (edge d s).dec := by
  have ⟨_, ⟨hT, _⟩, _⟩ := hp
  have hel := h.elapsed_le
  have hnoise : s.dec.state = .bitSynchronized ∨ s.dec.state = .dataSynchronized →
      edge d s = recordEdge d s := fun hs => edge_of_noise d hs (by omega)
  cases h.stage with
  | idle hk hs ha =>
    rw [edge_of_idle d hs ha]
    exact ⟨h.byte_lt, h.total_eq, .armed hk hs rfl (edgeOfDir_ne_none d) (Nat.zero_add _).le⟩
  | armed hk hs ha =>
    have hno : ¬ locks d s = true := fun hl => by
      obtain ⟨-, hq⟩ := (locks_iff d s).mp hl
      omega
    rw [edge_of_not_locks hs ha hno]
    exact ⟨h.byte_lt, h.total_eq, .armed hk hs ha (edgeOfDir_ne_none d) (Nat.zero_add _).le⟩
  | alternating hone => exact absurd hone hk
  | locked hlo hhi hs ha hsh he =>
    rw [hnoise (.inl hs)]
    exact ⟨h.byte_lt, h.total_eq, .locked hlo hhi hs ha hsh he⟩
  | matched hlo hs ha hsh he hf =>
    rw [hnoise (.inr hs)]
    exact ⟨h.byte_lt, h.total_eq, .matched hlo hs ha hsh he (hf.of_fields rfl rfl rfl)⟩

/-! ## The sync pattern in the shift register -/

/-- The first 16 bits of a wire sequence are `SYNC`, bit 15 first (20_memory.md R66). -/
def StartsWithSync (p : Params) (bits : Nat → Bool) : Prop :=
  ∀ j, j < 16 → bits j = p.sync.getLsbD (15 - j)

@[simp] theorem bitval_dirOfLevel (b : Bool) : bitval (dirOfLevel b) = b := by
  cases b <;> rfl

theorem StartsWithSync.alternates {p : Params} {bits : Nat → Bool} (h : StartsWithSync p bits)
    (hp : paramsValid p) : bits 0 = !bits 1 := by
  have ⟨_, _, _, _, hne, _⟩ := hp
  rw [h 0 (by decide), h 1 (by decide)]
  exact Bool.eq_not.mpr hne

/-- Each later centre edge shifts the next bit of `SYNC` in (41_decoder.md R131). -/
theorem StartsWithSync.shiftIn_eq {p : Params} {bits : Nat → Bool} (h : StartsWithSync p bits)
    {k : Nat} (hk : k < 16) :
    shiftIn (p.sync >>> (16 - k)) (bits k) = p.sync >>> (16 - (k + 1)) := by
  refine BitVec.eq_of_getLsbD_eq fun i hi => ?_
  rw [shiftIn_getLsbD _ _ i hi, BitVec.getLsbD_ushiftRight, BitVec.getLsbD_ushiftRight, h k hk]
  split
  next h0 => rw [h0]; congr 1; omega
  next h0 => congr 1; omega

/-- The lock seeds the register with the first two bits of `SYNC` (41_decoder.md R128, R147 (b)). -/
theorem StartsWithSync.lockSeed_eq {p : Params} {bits : Nat → Bool} (h : StartsWithSync p bits)
    (hp : paramsValid p) : lockSeed (bits 1) = p.sync >>> 14 := by
  have hseed : ∀ b, lockSeed b = shiftIn (shiftIn 0#16 (!b)) b := by decide
  have hnone : p.sync >>> 16 = 0#16 := BitVec.ushiftRight_eq_zero le_rfl
  rw [hseed, ← h.alternates hp, ← hnone]
  exact (congrArg (shiftIn · (bits 1)) (h.shiftIn_eq (k := 0) (by decide))).trans
    (h.shiftIn_eq (k := 1) (by decide))

/-- `SYNC` is not 0, so no part of it is `SYNC` before the last bit is in: there is no early match. -/
theorem sync_ushiftRight_ne {p : Params} (hp : paramsValid p) {m : Nat} (hm : 0 < m) :
    p.sync >>> m ≠ p.sync := by
  have ⟨_, _, _, _, hne, _⟩ := hp
  have hpos : 0 < p.sync.toNat := Nat.pos_of_ne_zero fun h0 => hne (by
    have hz : p.sync = 0#16 := BitVec.eq_of_toNat_eq h0
    rw [hz]
    rfl)
  intro heq
  have hval := congrArg BitVec.toNat heq
  rw [BitVec.toNat_ushiftRight, Nat.shiftRight_eq_div_pow] at hval
  exact (Nat.div_lt_self hpos (Nat.one_lt_two_pow hm.ne')).ne hval

/-! ## The centre edge -/

/-- The match stores the sync field, whose 16 bits are the ones received. -/
theorem holdsFrame_syncMatch {bits : Nat → Bool} {s : State} (hb : StartsWithSync s.params bits)
    (hm : s.dec.shift = s.params.sync) : HoldsFrame s.params bits 16 (syncMatch s).dec := by
  refine ⟨rfl, fun i j hi => ?_⟩
  have hj := j.isLt
  obtain ⟨h0, h1⟩ := syncFieldOnTheWire s.params j
  rw [syncMatch_dec_buf, read_storeMatch, hm]
  match i with
  | 0 =>
    rw [if_neg (by omega), if_neg (by omega), if_pos rfl, hb _ (by omega),
      decide_eq_true (by omega), Bool.true_and]
    exact h0.trans (congrArg s.params.sync.getLsbD (by omega))
  | 1 =>
    rw [if_neg (by omega), if_pos rfl, hb _ (by omega), decide_eq_true (by omega), Bool.true_and]
    exact h1.trans (congrArg s.params.sync.getLsbD (by omega))
  | m + 2 =>
    rw [if_pos (by omega), decide_eq_false (by omega), Bool.false_and]
    exact BitVec.getLsbD_zero

/-- The cursor advances by one bit of the frame. -/
theorem advanceDecCursor_bits (s : State) :
    8 * (advanceDecCursor s).dec.byte + (advanceDecCursor s).dec.bit.toNat =
      8 * s.dec.byte + s.dec.bit.toNat + 1 := by
  rcases advanceDecCursor_cases s with ⟨hb, h⟩ | ⟨hb, h⟩ <;> rw [h]
  · simp [hb]
    omega
  · show _ + (s.dec.bit + 1#3).toNat = _
    bv_omega

/-- An extraction adds the bit of its edge to the frame (41_decoder.md R134). -/
theorem HoldsFrame.extract {bits : Nat → Bool} {k : Nat} {s : State}
    (h : HoldsFrame s.params bits k s.dec) :
    HoldsFrame s.params bits (k + 1)
      (advanceDecCursor (extractBit (dirOfLevel (bits k)) s)).dec := by
  have hcursor := h.cursor
  have hbit := s.dec.bit.isLt
  refine ⟨?_, fun i j hi => ?_⟩
  · rw [advanceDecCursor_bits, extractBit_dec_byte, extractBit_dec_bit, hcursor]
  · have hj := j.isLt
    rw [advanceDecCursor_dec_buf]
    by_cases hib : i = s.dec.byte
    · rw [hib, wirebit_extractBit, h.stored _ _ (hib ▸ hi)]
      by_cases hjb : j = s.dec.bit
      · have hpos : 8 * s.dec.byte + j.toNat = k := by rw [hjb, hcursor]
        rw [hpos]
        cases bits k <;> simp [hjb, dirOfLevel]
      · have hne : j.toNat ≠ s.dec.bit.toNat := fun h => hjb (BitVec.eq_of_toNat_eq h)
        have hlt : 8 * s.dec.byte + j.toNat < k + 1 ↔ 8 * s.dec.byte + j.toNat < k := by omega
        rw [if_neg fun h => hjb h.1, decide_eq_decide.mpr hlt]
    · have hlt : 8 * i + j.toNat < k + 1 ↔ 8 * i + j.toNat < k := by omega
      rw [read_extractBit_other _ hib, h.stored i j hi, decide_eq_decide.mpr hlt]

/-- The extraction of a qualifying edge, before the test for a full frame (41_decoder.md R134). -/
def extracted (d : Dir) (s : State) : State :=
  advanceDecCursor (restartCounter (extractBit d (recordEdge d s)))

@[simp] theorem extracted_dec_total (d : Dir) (s : State) :
    (extracted d s).dec.total = s.dec.total := by simp [extracted]
@[simp] theorem extracted_dec_active (d : Dir) (s : State) :
    (extracted d s).dec.active = s.dec.active := by simp [extracted]
@[simp] theorem extracted_dec_state (d : Dir) (s : State) :
    (extracted d s).dec.state = s.dec.state := by simp [extracted]
@[simp] theorem extracted_dec_shift (d : Dir) (s : State) :
    (extracted d s).dec.shift = s.dec.shift := by simp [extracted]
@[simp] theorem extracted_dec_elapsed (d : Dir) (s : State) :
    (extracted d s).dec.elapsed = 0 := by simp [extracted]

theorem HoldsFrame.extracted {bits : Nat → Bool} {k : Nat} {s : State}
    (h : HoldsFrame s.params bits k s.dec) :
    HoldsFrame s.params bits (k + 1) (extracted (dirOfLevel (bits k)) s).dec :=
  h.extract.of_fields (by simp [Machine.extracted]) (by simp [Machine.extracted])
    (by simp [Machine.extracted])

/-- The centre edge of bit `k`, `N` ticks after the one before: it arms, locks, shifts, matches or extracts,
as R147 (a) to (e) say. -/
theorem Reception.centreEdge {bits : Nat → Bool} {k : Nat} {s : State}
    (h : Reception s.params bits k s.params.ticksPerBit s.dec) (hp : paramsValid s.params)
    (hb : StartsWithSync s.params bits) (hk : k + 1 < 8 * s.params.frameCap) :
    Reception s.params bits (k + 1) 0 (edge (dirOfLevel (bits k)) s).dec := by
  have ⟨⟨heven, _⟩, ⟨hhalf, hT⟩, _, ⟨hcap, _⟩, _⟩ := hp
  cases h.stage with
  | idle hk hs ha =>
    rw [edge_of_idle _ hs ha, hk]
    exact ⟨h.byte_lt, h.total_eq, .alternating rfl hs rfl rfl rfl⟩
  | armed hk hs ha _ he =>
    have hno : ¬ locks (dirOfLevel (bits k)) s = true := fun hl => by
      obtain ⟨-, hq⟩ := (locks_iff _ s).mp hl
      omega
    rw [edge_of_not_locks hs ha hno, hk]
    exact ⟨h.byte_lt, h.total_eq, .alternating rfl hs ha rfl rfl⟩
  | alternating hk hs ha hpe he =>
    have hl : locks (dirOfLevel (bits 1)) s = true := by
      refine (locks_iff _ s).mpr ⟨?_, by omega⟩
      rw [hpe, hb.alternates hp]
      cases bits 1 <;> decide
    rw [hk, edge_of_locks hs ha hl]
    refine ⟨h.byte_lt, h.total_eq, .locked le_rfl (by decide) rfl ha ?_ rfl⟩
    exact (congrArg lockSeed (bitval_dirOfLevel _)).trans (hb.lockSeed_eq hp)
  | locked hlo hhi hs ha hsh he =>
    have hshift : shiftIn s.dec.shift (bitval (dirOfLevel (bits k))) =
        s.params.sync >>> (16 - (k + 1)) := by
      rw [hsh, bitval_dirOfLevel, hb.shiftIn_eq hhi]
    rcases Nat.lt_or_ge (k + 1) 16 with hlt | hge
    · have hne : shiftIn s.dec.shift (bitval (dirOfLevel (bits k))) ≠ s.params.sync := by
        rw [hshift]
        exact sync_ushiftRight_ne hp (by omega)
      rw [edge_of_mismatch hs (by omega) hne]
      exact ⟨h.byte_lt, h.total_eq, .locked (by omega) hlt hs ha hshift rfl⟩
    · obtain rfl : k = 15 := by omega
      have hsync : shiftIn s.dec.shift (bitval (dirOfLevel (bits 15))) = s.params.sync := hshift
      have hframe := holdsFrame_syncMatch (s := shiftBit (dirOfLevel (bits 15)) s) hb hsync
      rw [edge_of_match hs (by omega) hsync]
      exact ⟨hcap, rfl, .matched le_rfl rfl ha hsync rfl (hframe.of_fields rfl rfl rfl)⟩
  | matched hlo hs ha hsh he hf =>
    have hframe := hf.extracted
    have hcursor := hframe.cursor
    have hbyte : (extracted (dirOfLevel (bits k)) s).dec.byte < s.params.frameCap := by omega
    have htotal : (extracted (dirOfLevel (bits k)) s).dec.total = s.params.frameCap :=
      (extracted_dec_total ..).trans h.total_eq
    have hedge : edge (dirOfLevel (bits k)) s = extracted (dirOfLevel (bits k)) s :=
      (edge_of_extract _ hs (by omega)).trans (if_neg (htotal ▸ hbyte.ne))
    rw [hedge]
    exact ⟨hbyte, htotal, .matched (by omega) (by simpa using hs) (by simpa using ha)
      (by simpa using hsh) (by simp) hframe⟩

/-- The centre edge of the last bit that fits completes the frame (41_decoder.md R135). -/
theorem Reception.lastEdge {bits : Nat → Bool} {k : Nat} {s : State}
    (h : Reception s.params bits k s.params.ticksPerBit s.dec) (hp : paramsValid s.params)
    (hk : k + 1 = 8 * s.params.frameCap) :
    Received s.params bits (k + 1) (edge (dirOfLevel (bits k)) s).dec ∧
      s.dec.state = .dataSynchronized := by
  have ⟨_, ⟨_, hT⟩, _, ⟨hcap, _⟩, _⟩ := hp
  cases h.stage with
  | idle => omega
  | armed => omega
  | alternating => omega
  | locked => omega
  | matched hlo hs ha hsh he hf =>
    have hframe := hf.extracted
    have hcursor := hframe.cursor
    have hbit := (extracted (dirOfLevel (bits k)) s).dec.bit.isLt
    have htotal : (extracted (dirOfLevel (bits k)) s).dec.total = s.params.frameCap :=
      (extracted_dec_total ..).trans h.total_eq
    have hfull : (extracted (dirOfLevel (bits k)) s).dec.byte =
        (extracted (dirOfLevel (bits k)) s).dec.total := by omega
    have hedge : edge (dirOfLevel (bits k)) s = complete (extracted (dirOfLevel (bits k)) s) :=
      (edge_of_extract _ hs (by omega)).trans (if_pos hfull)
    rw [hedge]
    exact ⟨⟨rfl, hframe.of_fields rfl rfl rfl⟩, hs⟩

end Sys2Proof.Machine
end

section
/-! The loopback (41_decoder.md R147; O50, O51): each `lbtick` carries the transmission one tick further and
shows the decoder its line, until the tick that completes the frame. -/

namespace Sys2Proof.Machine

/-! ## One loopback tick -/

/-- The state after one `lbtick` (30_encoding.md R93). -/
def loopTick (s : State) : State :=
  rxSample (tick (beginOp s)).enc.tx (beginOp (tick (beginOp s)))

/-- How many operations of one `lbtick` notify. -/
def loopNotifications (s : State) : Nat :=
  (tick (beginOp s)).outReady.toNat + (loopTick s).outReady.toNat

theorem loopback_succ (n : Nat) {s : State} (ho : operable s) :
    loopback (n + 1) s =
      (loopback n (loopTick s)).map fun r => (r.1, loopNotifications s + r.2) := by
  simp only [loopback, exec_tick_of_operable ho, exec_rxSample_of_operable _ (tick_operable ho)]
  rfl

/-- What a quiet `lbtick` carries from tick `n` to `n + 1` holds after `m` of them, and the loopback goes on
from there. -/
theorem loopback_keeps {J : Nat → State → Prop} {last : Nat}
    (hstep : ∀ n s, n < last → J n s →
      operable s ∧ loopNotifications s = 0 ∧ J (n + 1) (loopTick s))
    {m n : Nat} {s : State} (hs : J n s) (hm : n + m ≤ last) :
    ∃ u, J (n + m) u ∧ ∀ c, loopback (m + c) s = loopback c u := by
  induction m generalizing n s with
  | zero => exact ⟨s, hs, fun c => by rw [Nat.zero_add]⟩
  | succ m ih =>
    obtain ⟨ho, hquiet, hnext⟩ := hstep n s (by omega) hs
    obtain ⟨u, hu, hrun⟩ := ih hnext (by omega)
    refine ⟨u, by rwa [Nat.add_right_comm] at hu, fun c => ?_⟩
    rw [Nat.add_right_comm, loopback_succ _ ho, hquiet, hrun]
    simp

/-- The two operations of a `lbtick` notify exactly where they complete a frame (41_decoder.md R146). -/
theorem loopNotifications_eq {s : State} (ho : operable s) :
    loopNotifications s =
      (decide (s.dec.state = .dataSynchronized ∧ (tick (beginOp s)).dec.state = .dataReady)).toNat +
      (decide ((tick (beginOp s)).dec.state = .dataSynchronized ∧
        (loopTick s).dec.state = .dataReady)).toNat := by
  have htick := notificationExactlyOnCompletion _ _ _ (exec_tick_of_operable ho)
  have hsample := notificationExactlyOnCompletion _ _ _
    (exec_rxSample_of_operable (tick (beginOp s)).enc.tx (tick_operable ho))
  rw [loopNotifications, loopTick]
  congr 2
  · exact Bool.eq_iff_iff.mpr (htick.trans decide_eq_true_iff.symm)
  · exact Bool.eq_iff_iff.mpr (hsample.trans decide_eq_true_iff.symm)

/-! ## The sample of a loopback tick -/

theorem rxSample_det (level : Bool) (s : State) :
    (rxSample level s).det = { rxPrev := level, rxSeen := true } := by
  rcases rxSample_cases level s with ⟨-, h⟩ | ⟨hseen, heq, h⟩ | ⟨hseen, -, h⟩ <;> rw [h]
  · rfl
  · rw [heq, ← hseen]
  · rw [edge_det, ← hseen]
    rfl

@[simp] theorem loopTick_params (s : State) : (loopTick s).params = s.params := by
  simp [loopTick]

theorem loopTick_enc (s : State) : (loopTick s).enc = nextEncSession s.params s.enc := by
  rw [loopTick, rxSample_enc, beginOp_enc, tick_enc, encTick_enc, beginOp_params, beginOp_enc]

theorem loopTick_det (s : State) :
    (loopTick s).det = { rxPrev := (loopTick s).enc.tx, rxSeen := true } := by
  rw [loopTick, rxSample_det, rxSample_enc, beginOp_enc]

/-! ## The invariant -/

/-- The loopback `n` ticks after the START_ENCODE of a frame with the wire sequence `bits`: the detector has
seen the line, and the decoder has received the bits that have been sent. -/
structure LoopbackAt (p : Params) (total : Nat) (idle : Bool) (bits : Nat → Bool) (n : Nat)
    (s : State) : Prop where
  sent : TransmissionAt p total idle bits n s
  ok : operable s
  agrees : s.det.rxSeen = true → s.det.rxPrev = s.enc.tx
  seen : 0 < n → s.det.rxSeen = true
  received : Reception p bits (bitsSent s.enc) (n - bitsSent s.enc * p.ticksPerBit) s.dec

/-- The tick that completes the frame (41_decoder.md R147 (f)). -/
def completionTick (p : Params) (total : Nat) : Nat :=
  if total = p.frameCap then 8 * p.frameCap * p.ticksPerBit
  else 8 * total * p.ticksPerBit + p.watchdogTicks + 1

section
variable {p : Params} {total n : Nat} {idle : Bool} {bits : Nat → Bool} {s : State}

theorem LoopbackAt.valid (h : LoopbackAt p total idle bits n s) : paramsValid p :=
  h.sent.params_eq ▸ h.ok.1

/-- The age of the last bit, as the encoder's phase. -/
theorem LoopbackAt.age_of_active (h : LoopbackAt p total idle bits n s) (ha : s.enc.active = true) :
    n - bitsSent s.enc * p.ticksPerBit = s.enc.phase := by
  have hn := h.sent.spent_eq ha
  unfold ticksSpent at hn
  omega

theorem LoopbackAt.sent_next (h : LoopbackAt p total idle bits n s) :
    TransmissionAt p total idle bits (n + 1) (loopTick s) := by
  have hbegin : TransmissionAt p total idle bits n (beginOp s) :=
    transmissionAt_ofEncoder _ _ _ _ _ s _ rfl rfl h.sent
  exact transmissionAt_ofEncoder _ _ _ _ _ (encTick (beginOp s)) _ (by simp)
    (by rw [loopTick_enc, encTick_enc]; rfl) (hbegin.next_tick h.ok)

/-- Before the tick that completes the frame, the watchdog's limit is not reached. -/
theorem LoopbackAt.age_lt (h : LoopbackAt p total idle bits n s)
    (hn : n + 1 < completionTick p total) :
    n - bitsSent s.enc * p.ticksPerBit < p.watchdogTicks := by
  have ⟨_, _, ⟨hNW, _⟩, _⟩ := h.valid
  have hph := (encRegistersOk_of_operable h.ok).phase_lt
  rw [h.sent.params_eq] at hph
  cases ha : s.enc.active with
  | true =>
    rw [h.age_of_active ha]
    omega
  | false =>
    have hend := h.sent.active_iff h.ok
    obtain ⟨hk, -⟩ := h.sent.bitsSent_of_ended ha
    rw [ha, ← hk] at hend
    rw [completionTick, ← hk] at hn
    split at hn
    next hfull =>
      rw [hfull] at hk
      rw [← hk] at hn
      have hover : bitsSent s.enc * p.ticksPerBit ≤ n := by simpa using hend
      omega
    next => omega

/-- The decoder between the TICK and the sample. -/
theorem LoopbackAt.received_tick (h : LoopbackAt p total idle bits n s)
    (hage : n - bitsSent s.enc * p.ticksPerBit < p.watchdogTicks) :
    Reception p bits (bitsSent s.enc) (n - bitsSent s.enc * p.ticksPerBit + 1)
      (tick (beginOp s)).dec := by
  have hr := h.received
  have hp := h.ok.1
  rw [← h.sent.params_eq] at hage hr ⊢
  exact hr.after_tick hp hage

/-- The sample leaves the decoder as the TICK left it, unless the line has changed; where the detector sees
the change, it performs one EDGE. -/
theorem LoopbackAt.loopTick_dec_cases (h : LoopbackAt p total idle bits n s) :
    ((loopTick s).dec = (tick (beginOp s)).dec ∧
      (s.det.rxSeen = true → (nextEncSession p s.enc).tx = s.enc.tx)) ∨
    ((nextEncSession p s.enc).tx ≠ s.enc.tx ∧
      ∃ x : State, x.params = p ∧ x.dec = (tick (beginOp s)).dec ∧
        (loopTick s).dec = (edge (dirOfLevel (nextEncSession p s.enc).tx) x).dec) := by
  have htx : (tick (beginOp s)).enc.tx = (nextEncSession p s.enc).tx := by
    rw [← h.sent.params_eq, ← loopTick_enc, loopTick, rxSample_enc, beginOp_enc]
  have hdet : (tick (beginOp s)).det = s.det := tick_det _
  rcases rxSample_cases (tick (beginOp s)).enc.tx (beginOp (tick (beginOp s))) with
    ⟨hunseen, hr⟩ | ⟨hseen, heq, hr⟩ | ⟨hseen, hne, hr⟩
  · rw [beginOp_det, hdet] at hunseen
    refine .inl ⟨?_, fun hs => by simp [hunseen] at hs⟩
    rw [loopTick, hr, initDetector_dec, beginOp_dec]
  · rw [htx, beginOp_det, hdet] at heq
    refine .inl ⟨?_, fun hs => heq.trans (h.agrees hs)⟩
    rw [loopTick, hr, beginOp_dec]
  · rw [beginOp_det, hdet] at hseen
    rw [htx, beginOp_det, hdet, h.agrees hseen] at hne
    refine .inr ⟨hne, recordLevel (tick (beginOp s)).enc.tx (beginOp (tick (beginOp s))), ?_, rfl, ?_⟩
    · simp [h.sent.params_eq]
    · rw [← htx, loopTick, hr]

/-- The line one tick later. -/
theorem LoopbackAt.next_tx (h : LoopbackAt p total idle bits n s) (ha : s.enc.active = true) :
    (nextEncSession p s.enc).tx =
      if s.enc.phase + 1 = p.ticksPerBit then lineLevel p idle bits (bitsSent s.enc + 1) 0
      else lineLevel p idle bits (bitsSent s.enc) (s.enc.phase + 1) := by
  have hline := h.sent_next.line
  rw [loopTick_enc, h.sent.params_eq, bitsSent_nextEncSession ha, phase_nextEncSession ha] at hline
  rw [hline]
  split <;> rfl

/-- The end of bit `k`: the line changes to the bit, and the detector sees it. -/
theorem LoopbackAt.edge_at_endOfBit (h : LoopbackAt p total idle bits n s)
    (ha : s.enc.active = true) (he : s.enc.phase + 1 = p.ticksPerBit) :
    ∃ x : State, x.params = p ∧ x.dec = (tick (beginOp s)).dec ∧
      (loopTick s).dec = (edge (dirOfLevel (bits (bitsSent s.enc))) x).dec := by
  have ⟨⟨_, hN⟩, _⟩ := h.valid
  have hnew := h.next_tx ha
  rw [if_pos he, lineLevel_firstHalf (by omega), levelBefore] at hnew
  have hold := h.sent.line
  rw [lineLevel_secondHalf (by omega)] at hold
  have hage := h.age_of_active ha
  rcases h.loopTick_dec_cases with ⟨-, hsame⟩ | ⟨-, x, hp, hd, hr⟩
  · have heq := hsame (h.seen (by omega))
    rw [hnew, hold] at heq
    simp at heq
  · rw [hnew] at hr
    exact ⟨x, hp, hd, hr⟩

/-- Within a bit the line changes only in its middle, and between the first two bits, which differ, not even
there (41_decoder.md R127, R147 (b)). -/
theorem LoopbackAt.midBit_of_change (h : LoopbackAt p total idle bits n s)
    (hb : StartsWithSync p bits) (ha : s.enc.active = true) (he : s.enc.phase + 1 ≠ p.ticksPerBit)
    (hne : (nextEncSession p s.enc).tx ≠ s.enc.tx) :
    s.enc.phase + 1 = p.ticksPerBit / 2 ∧ bitsSent s.enc ≠ 1 := by
  rw [h.next_tx ha, if_neg he, h.sent.line] at hne
  have hmid : s.enc.phase + 1 = p.ticksPerBit / 2 := by
    by_contra hmid
    have hhalf : s.enc.phase + 1 < p.ticksPerBit / 2 ↔ s.enc.phase < p.ticksPerBit / 2 := by omega
    exact hne (if_congr hhalf rfl rfl)
  refine ⟨hmid, fun hk => hne ?_⟩
  rw [hk, lineLevel_secondHalf hmid.ge, lineLevel_firstHalf (by omega), levelBefore,
    hb.alternates h.valid]

/-- After the last bit the line stays, and so the sample does nothing. -/
theorem LoopbackAt.loopTick_dec_of_ended (h : LoopbackAt p total idle bits n s)
    (ha : s.enc.active = false) : (loopTick s).dec = (tick (beginOp s)).dec := by
  have hstay : nextEncSession p s.enc = s.enc := if_pos ha
  rcases h.loopTick_dec_cases with ⟨hr, -⟩ | ⟨hne, -⟩
  · exact hr
  · exact absurd (congrArg EncSession.tx hstay) hne

/-- Before the tick that completes the frame, the bit at the encoder's cursor is not the last that fits. -/
theorem LoopbackAt.bit_fits (h : LoopbackAt p total idle bits n s) (ha : s.enc.active = true)
    (he : s.enc.phase + 1 = p.ticksPerBit) (hn : n + 1 < completionTick p total) :
    bitsSent s.enc + 1 < 8 * p.frameCap := by
  have hfit := (encRegistersOk_of_operable h.ok).total_le
  have hk := h.sent.bitsSent_lt h.ok ha
  have hspent := h.sent.spent_eq ha
  rw [h.sent.total_eq, h.sent.params_eq] at hfit
  rw [completionTick] at hn
  split at hn
  next =>
    refine Nat.lt_of_mul_lt_mul_right (a := p.ticksPerBit) ?_
    rw [Nat.succ_mul]
    unfold ticksSpent at hspent
    omega
  next => omega

/-- What the decoder has received one `lbtick` later: the end of a bit adds the bit, and the edge that may
come in its middle adds nothing (41_decoder.md R147 (c)). -/
theorem LoopbackAt.received_next (h : LoopbackAt p total idle bits n s)
    (hb : StartsWithSync p bits) (hn : n + 1 < completionTick p total) :
    Reception p bits (bitsSent (nextEncSession p s.enc))
      (n + 1 - bitsSent (nextEncSession p s.enc) * p.ticksPerBit) (loopTick s).dec := by
  have hp := h.valid
  have htick := h.received_tick (h.age_lt hn)
  have hle := h.sent.spent_le
  unfold ticksSpent at hle
  cases ha : s.enc.active with
  | false =>
    have hstay : nextEncSession p s.enc = s.enc := if_pos ha
    rw [hstay, h.loopTick_dec_of_ended ha, Nat.sub_add_comm (by omega)]
    exact htick
  | true =>
    have hspent := h.sent.spent_eq ha
    unfold ticksSpent at hspent
    rw [h.age_of_active ha] at htick
    rw [bitsSent_nextEncSession ha]
    by_cases he : s.enc.phase + 1 = p.ticksPerBit
    · obtain ⟨x, rfl, hd, hr⟩ := h.edge_at_endOfBit ha he
      have hage : n + 1 - (bitsSent s.enc + 1) * x.params.ticksPerBit = 0 := by
        rw [Nat.succ_mul]
        omega
      rw [← hd, he] at htick
      rw [if_pos he, hage, hr]
      exact htick.centreEdge hp hb (h.bit_fits ha he hn)
    · have hage : n + 1 - bitsSent s.enc * p.ticksPerBit = s.enc.phase + 1 := by omega
      rw [if_neg he, hage]
      rcases h.loopTick_dec_cases with ⟨hr, -⟩ | ⟨hne, x, rfl, hd, hr⟩
      · rwa [hr]
      · obtain ⟨hmid, hk⟩ := h.midBit_of_change hb ha he hne
        rw [hmid, ← hd] at htick
        rw [hr, hmid]
        exact htick.boundaryEdge _ hp hk

theorem bitsSent_le_next (p : Params) (e : EncSession) :
    bitsSent e ≤ bitsSent (nextEncSession p e) := by
  cases ha : e.active with
  | false => rw [nextEncSession, if_pos ha]
  | true =>
    rw [bitsSent_nextEncSession ha]
    split <;> omega

/-- A `lbtick` before the tick that completes the frame carries the loopback one tick further. -/
theorem LoopbackAt.next (h : LoopbackAt p total idle bits n s) (hb : StartsWithSync p bits)
    (hn : n + 1 < completionTick p total) :
    LoopbackAt p total idle bits (n + 1) (loopTick s) := by
  have hreceived := h.received_next hb hn
  have hage := h.age_lt hn
  have hmono := Nat.mul_le_mul_right p.ticksPerBit (bitsSent_le_next p s.enc)
  have hparams : (tick (beginOp s)).params = p := (tick_params _).trans h.sent.params_eq
  have henc : (loopTick s).enc = nextEncSession p s.enc := by
    rw [loopTick_enc, h.sent.params_eq]
  exact {
    sent := h.sent_next
    ok := operable_of_reception (tick_operable h.ok) (by rw [loopTick, rxSample_params]; rfl)
      (by rw [loopTick, rxSample_enc]; rfl) (hparams ▸ hreceived) (by rw [hparams]; omega)
    agrees := fun _ => by rw [loopTick_det]
    seen := fun _ => by rw [loopTick_det]
    received := henc ▸ hreceived }

/-- Before the tick that completes the frame nobody is notified. -/
theorem LoopbackAt.quiet (h : LoopbackAt p total idle bits n s) (hb : StartsWithSync p bits)
    (hn : n + 1 < completionTick p total) : loopNotifications s = 0 := by
  have htick := (h.received_tick (h.age_lt hn)).state_ne_dataReady
  have hnext := (h.received_next hb hn).state_ne_dataReady
  simp [loopNotifications_eq h.ok, htick, hnext]

/-! ## The tick that completes the frame -/

/-- With a full frame, the centre edge of the last bit completes it. -/
theorem LoopbackAt.completes_by_edge (h : LoopbackAt p p.frameCap idle bits n s)
    (hn : n + 1 = 8 * p.frameCap * p.ticksPerBit) :
    Received p bits (8 * p.frameCap) (loopTick s).dec ∧ loopNotifications s = 1 := by
  have hp := h.valid
  have ⟨⟨_, hN⟩, _, ⟨hNW, _⟩, ⟨hcap, _⟩, _⟩ := hp
  have ha : s.enc.active = true := (h.sent.active_iff h.ok).mpr (by omega)
  have hlast : 8 * p.frameCap * p.ticksPerBit =
      (8 * p.frameCap - 1) * p.ticksPerBit + p.ticksPerBit := by
    rw [← Nat.succ_mul]
    congr 1
    omega
  obtain ⟨hk, hph⟩ := h.sent.cursor_of_active (j := 8 * p.frameCap - 1) h.ok ha (by omega)
    (by rw [Nat.succ_mul]; omega)
  have he : s.enc.phase + 1 = p.ticksPerBit := by omega
  have htick := h.received_tick (by rw [h.age_of_active ha]; omega)
  obtain ⟨x, rfl, hd, hr⟩ := h.edge_at_endOfBit ha he
  rw [h.age_of_active ha, he, ← hd] at htick
  obtain ⟨hdone, hstate⟩ := htick.lastEdge hp (by omega)
  have hbits : bitsSent s.enc + 1 = 8 * x.params.frameCap := by omega
  rw [← hr, hbits] at hdone
  refine ⟨hdone, ?_⟩
  simp [loopNotifications_eq h.ok, ← hd, hstate, hdone.state]

/-- With a shorter frame, the watchdog completes it. -/
theorem LoopbackAt.completes_by_watchdog (h : LoopbackAt p total idle bits n s) (htotal : 2 ≤ total)
    (hn : n = 8 * total * p.ticksPerBit + p.watchdogTicks) :
    Received p bits (8 * total) (loopTick s).dec ∧ loopNotifications s = 1 := by
  have hp := h.ok.1
  have ha : s.enc.active = false := Bool.eq_false_iff.mpr fun hact => by
    have hlt := (h.sent.active_iff h.ok).mp hact
    omega
  obtain ⟨hk, -⟩ := h.sent.bitsSent_of_ended ha
  have hage : n - bitsSent s.enc * p.ticksPerBit = p.watchdogTicks := by
    rw [hk]
    omega
  have hr := h.received
  obtain rfl := h.sent.params_eq
  rw [hage, hk] at hr
  obtain ⟨hdone, hready⟩ := hr.after_expired_tick hp (by omega)
  rw [h.loopTick_dec_of_ended ha]
  refine ⟨hdone, ?_⟩
  obtain ⟨hsync, -⟩ :=
    (notificationExactlyOnCompletion _ _ _ (exec_tick_of_operable h.ok)).mp hready
  simp [loopNotifications_eq h.ok, hsync, hdone.state]

theorem LoopbackAt.completes (h : LoopbackAt p total idle bits n s) (htotal : 2 ≤ total)
    (hn : n + 1 = completionTick p total) :
    Received p bits (8 * total) (loopTick s).dec ∧ loopNotifications s = 1 := by
  unfold completionTick at hn
  split at hn
  next hfull =>
    subst hfull
    exact h.completes_by_edge hn
  next => exact h.completes_by_watchdog htotal (by omega)

/-! ## The whole loopback -/

/-- The loopback up to any tick before the one that completes the frame. -/
theorem LoopbackAt.run (h : LoopbackAt p total idle bits 0 s) (hb : StartsWithSync p bits)
    (hn : n < completionTick p total) :
    ∃ u, LoopbackAt p total idle bits n u ∧ ∀ c, loopback (n + c) s = loopback c u := by
  obtain ⟨u, hu, hrun⟩ := loopback_keeps (J := LoopbackAt p total idle bits)
    (last := completionTick p total - 1)
    (fun m v hm hv => ⟨hv.ok, hv.quiet hb (by omega), hv.next hb (by omega)⟩) (m := n) h (by omega)
  exact ⟨u, by rwa [Nat.zero_add] at hu, hrun⟩

/-- How many bits have been sent at tick `n`. -/
theorem LoopbackAt.bitsSent_eq (h : LoopbackAt p total idle bits n s) :
    bitsSent s.enc = min (n / p.ticksPerBit) (8 * total) := by
  have hend := h.sent.active_iff h.ok
  have ⟨⟨_, hN⟩, _⟩ := h.valid
  have hdiv := Nat.div_lt_iff_lt_mul (x := n) (y := 8 * total) (k := p.ticksPerBit) (by omega)
  cases ha : s.enc.active with
  | false =>
    obtain ⟨hk, -⟩ := h.sent.bitsSent_of_ended ha
    rw [ha] at hend
    simp only [Bool.false_eq_true, false_iff] at hend
    rw [hk, Nat.min_eq_right (Nat.le_of_not_lt (mt hdiv.mp hend))]
  | true =>
    have hlt := hdiv.mpr (hend.mp ha)
    obtain ⟨hk, -⟩ := h.sent.cursor_of_active (j := n / p.ticksPerBit) h.ok ha
      (Nat.div_mul_le_self ..) (by rw [Nat.mul_comm]; exact Nat.lt_mul_div_succ n (by omega))
    rw [hk, Nat.min_eq_left hlt.le]

end

end Sys2Proof.Machine
end

section
/-! What the loopback shows of an idle decoder: lock, match and round trip (41_decoder.md R147; O50, O51). -/

namespace Sys2Proof.Machine

/-! ## What the decoder holds, by the number of bits received -/

section
variable {p : Params} {bits : Nat → Bool} {k r : Nat} {d : DecSession}

theorem Reception.notSynchronized (h : Reception p bits k r d) (hk : k < 2) :
    d.state = .notSynchronized := by
  cases h.stage with
  | idle _ hs => exact hs
  | armed _ hs => exact hs
  | alternating _ hs => exact hs
  | locked hlo => omega
  | matched hlo => omega

theorem Reception.bitSynchronized (h : Reception p bits k r d) (hlo : 2 ≤ k) (hhi : k < 16) :
    d.state = .bitSynchronized ∧ d.shift = p.sync >>> (16 - k) := by
  cases h.stage with
  | idle => omega
  | armed => omega
  | alternating => omega
  | locked _ _ hs _ hsh => exact ⟨hs, hsh⟩
  | matched => omega

theorem Reception.dataSynchronized (h : Reception p bits k r d) (hlo : 16 ≤ k) :
    d.state = .dataSynchronized ∧ d.shift = p.sync := by
  cases h.stage with
  | idle => omega
  | armed => omega
  | alternating => omega
  | locked => omega
  | matched _ hs _ hsh => exact ⟨hs, hsh⟩

end

/-- The register at the lock holds the first two bits of `SYNC`. -/
theorem ushiftRight_14_eq (x : SyncWord) : x >>> 14 = (x.extractLsb' 14 2).setWidth 16 := by
  refine BitVec.eq_of_getLsbD_eq fun i hi => ?_
  rw [BitVec.getLsbD_ushiftRight, BitVec.getLsbD_setWidth, BitVec.getLsbD_extractLsb',
    decide_eq_true hi, Bool.true_and]
  by_cases h : i < 2
  · rw [decide_eq_true h, Bool.true_and]
  · rw [decide_eq_false h, Bool.false_and, BitVec.getLsbD_of_ge x (14 + i) (by omega)]

/-! ## From START_ENCODE -/

theorem frameBit_startsWithSync (p : Params) (payload : List Byte) :
    StartsWithSync p (frameBit p payload) :=
  fun _ hj => if_pos hj

/-- START_ENCODE beside an idle decoder begins the loopback of its frame. -/
theorem loopbackAt_startEncode {len : Nat} {payload : List Byte} {s : State} (h : coreInv s)
    (hs : s.dec.state = .notSynchronized) (ha : s.dec.active = false)
    (hdet : s.det.rxSeen = true → s.det.rxPrev = s.enc.tx)
    (hl : payload.length = s.params.payloadCap) :
    LoopbackAt s.params (clampLength s.params len + 2) s.enc.tx (frameBit s.params payload) 0
      (startEncode len payload (beginOp s)) := by
  obtain ⟨ho, hcursor⟩ := h
  have ⟨hp, ⟨_, _, _, _, htotal, _⟩, _, _, _, _, hidle, _⟩ := ho
  exact {
    sent := transmissionAt_startEncode hp hl
    ok := startEncode_operable ho len payload
    agrees := hdet
    seen := fun hn => absurd hn (lt_irrefl 0)
    received := Reception.of_idle (hcursor hs) htotal hs ha (hidle ⟨hs, ha⟩) }

/-- The sync match comes before the tick that completes the frame. -/
theorem sync_lt_completionTick {p : Params} (hp : paramsValid p) {total : Nat} (ht : 2 ≤ total) :
    16 * p.ticksPerBit < completionTick p total := by
  obtain ⟨⟨-, hN⟩, -, -, ⟨hcap, -⟩, -⟩ := hp
  unfold completionTick
  split
  · exact Nat.mul_lt_mul_of_pos_right (by omega) (by omega)
  · have := Nat.mul_le_mul_right p.ticksPerBit (show 16 ≤ 8 * total by omega)
    omega

/-- Up to the tick of the sync match the decoder has received `n / N` bits at tick `n`, and nobody has been
notified. -/
theorem LoopbackAt.run_to_sync {p : Params} {total n : Nat} {idle : Bool} {bits : Nat → Bool}
    {s : State} (h : LoopbackAt p total idle bits 0 s) (hb : StartsWithSync p bits)
    (htotal : 2 ≤ total) (hn : n ≤ 16 * p.ticksPerBit) :
    ∃ u r, loopback n s = some (u, 0) ∧ Reception p bits (n / p.ticksPerBit) r u.dec := by
  obtain ⟨u, hu, hrun⟩ := h.run hb (hn.trans_lt (sync_lt_completionTick h.valid htotal))
  have hsent := hu.bitsSent_eq
  have hdiv : n / p.ticksPerBit ≤ 16 := Nat.div_le_of_le_mul (by rwa [Nat.mul_comm])
  rw [Nat.min_eq_left (by omega)] at hsent
  exact ⟨u, _, hrun 0, hsent ▸ hu.received⟩

/-- Settles O50: at tick `n` the decoder has received `n / N` bits, and nobody has been notified. -/
theorem loopbackLocksAndMatches : Obligations.LoopbackLocksAndMatches := by
  intro s t len payload hinv hs ha hdet ht
  obtain ⟨ho, hl, rfl⟩ := (exec_startEncode_next_iff len payload s t).mp ht
  have ⟨⟨⟨_, hN⟩, _⟩, _⟩ := ho
  have hstart := loopbackAt_startEncode (len := len) hinv hs ha hdet hl
  have hrun {n : Nat} := hstart.run_to_sync (n := n) (frameBit_startsWithSync _ _)
    (Nat.le_add_left 2 _)
  refine ⟨fun n hn => ?_, ?_, fun n hlo hhi => ?_, ?_⟩
  · obtain ⟨u, r, hu, hr⟩ := hrun (n := n) (by omega)
    exact ⟨u, hu, hr.notSynchronized ((Nat.div_lt_iff_lt_mul (by omega)).mpr hn)⟩
  · obtain ⟨u, r, hu, hr⟩ := hrun (n := 2 * s.params.ticksPerBit) (by omega)
    rw [Nat.mul_div_cancel _ (by omega)] at hr
    obtain ⟨hstate, hshift⟩ := hr.bitSynchronized le_rfl (by decide)
    exact ⟨u, hu, hstate, hshift.trans (ushiftRight_14_eq _)⟩
  · obtain ⟨u, r, hu, hr⟩ := hrun hhi.le
    have hlow := (Nat.le_div_iff_mul_le (by omega)).mpr hlo
    have hhigh := (Nat.div_lt_iff_lt_mul (by omega)).mpr hhi
    obtain ⟨hstate, -⟩ := hr.bitSynchronized hlow hhigh
    exact ⟨u, hu, hstate⟩
  · obtain ⟨u, r, hu, hr⟩ := hrun le_rfl
    rw [Nat.mul_div_cancel _ (by omega)] at hr
    exact ⟨u, hu, hr.dataSynchronized le_rfl⟩

/-! ## The frame that arrives -/

/-- A complete frame of `total` bytes leaves the byte cursor at `total`. -/
theorem HoldsFrame.byte_eq {p : Params} {bits : Nat → Bool} {total : Nat} {d : DecSession}
    (h : HoldsFrame p bits (8 * total) d) : d.byte = total := by
  have hcursor := h.cursor
  have hbit := d.bit.isLt
  omega

/-- Behind the frame `DecBuf` holds zeros. -/
theorem HoldsFrame.read_behind {p : Params} {bits : Nat → Bool} {total i : Nat} {d : DecSession}
    (h : HoldsFrame p bits (8 * total) d) (hi : i < p.frameCap) (hlo : total ≤ i) :
    d.buf.read i = 0x00#8 := by
  refine eq_of_wirebit_eq (o := p.order) fun j => ?_
  rw [h.stored i j hi, decide_eq_false (by omega), Bool.false_and]
  exact BitVec.getLsbD_zero.symm

/-- The bytes received are the bytes that START_ENCODE has stored. -/
theorem HoldsFrame.read_eq_sent {payload : List Byte} {s : State} {len i : Nat} {d : DecSession}
    (h : HoldsFrame s.params (frameBit s.params payload) (8 * (clampLength s.params len + 2)) d)
    (hl : payload.length = s.params.payloadCap) (hi : i < s.params.frameCap)
    (hhi : i < clampLength s.params len + 2) :
    d.buf.read i = (startEncode len payload s).enc.buf.read i := by
  refine eq_of_wirebit_eq (o := s.params.order) fun j => ?_
  have hj := j.isLt
  rw [h.stored i j hi, decide_eq_true (by omega), Bool.true_and, wirebit_startEncode hl hhi]

/-- Every byte of a complete frame, as R147 (g) says. -/
theorem HoldsFrame.read_eq {payload : List Byte} {s : State} {len i : Nat} {d : DecSession}
    (h : HoldsFrame s.params (frameBit s.params payload) (8 * (clampLength s.params len + 2)) d)
    (hl : payload.length = s.params.payloadCap) (hi : i < s.params.frameCap) :
    d.buf.read i =
      if i = 0 then syncByte0 s.params
      else if i = 1 then syncByte1 s.params
      else if i < 2 + clampLength s.params len then payload.getD (i - 2) 0x00#8
      else 0x00#8 := by
  by_cases hin : i < 2 + clampLength s.params len
  · rw [h.read_eq_sent hl hi (by omega), read_startEncode len hl, if_pos hin, if_pos hin]
  · rw [h.read_behind hi (by omega), if_neg (by omega), if_neg (by omega), if_neg hin]

/-- The completion tick of the frame that START_ENCODE sends, as R147 (f) says. -/
theorem completionTick_clampLength {p : Params} (hp : paramsValid p) (len : Nat) :
    completionTick p (clampLength p len + 2) =
      if clampLength p len = p.payloadCap then 8 * p.frameCap * p.ticksPerBit
      else (16 + 8 * clampLength p len) * p.ticksPerBit + p.watchdogTicks + 1 := by
  obtain ⟨-, -, -, ⟨hcap, -⟩, -⟩ := hp
  have hfull : clampLength p len + 2 = p.frameCap ↔ clampLength p len = p.payloadCap := by
    unfold Params.payloadCap
    omega
  have hbits : 8 * (clampLength p len + 2) = 16 + 8 * clampLength p len := by omega
  rw [completionTick, if_congr hfull rfl rfl, hbits]

/-- The loopback up to the tick that completes the frame, and the one notification. -/
theorem LoopbackAt.run_to_completion {p : Params} {total : Nat} {idle : Bool} {bits : Nat → Bool}
    {s : State} (h : LoopbackAt p total idle bits 0 s) (hb : StartsWithSync p bits)
    (htotal : 2 ≤ total) (hpos : 0 < completionTick p total) :
    ∃ u, loopback (completionTick p total) s = some (u, 1) ∧
      Received p bits (8 * total) u.dec := by
  obtain ⟨v, hv, hrun⟩ := h.run hb (Nat.sub_one_lt hpos.ne')
  obtain ⟨hreceived, hnotified⟩ := hv.completes htotal (Nat.sub_add_cancel hpos)
  refine ⟨loopTick v, ?_, hreceived⟩
  have hlast := hrun 1
  rw [Nat.sub_add_cancel hpos, loopback_succ 0 hv.ok, hnotified] at hlast
  exact hlast

/-- Settles O51: the loopback is quiet before the completion tick, and that tick completes the frame that
START_ENCODE has stored. -/
theorem loopbackRoundTrip : Obligations.LoopbackRoundTrip := by
  rintro s t len L n payload hinv hs ha hdet ht rfl rfl
  obtain ⟨ho, hl, rfl⟩ := (exec_startEncode_next_iff len payload s t).mp ht
  have htotal := Nat.le_add_left 2 (clampLength s.params len)
  have hstart := loopbackAt_startEncode (len := len) hinv hs ha hdet hl
  have hsync := frameBit_startsWithSync s.params payload
  obtain ⟨u, hu, hstate, hframe⟩ := hstart.run_to_completion hsync htotal
    (Nat.zero_lt_of_lt (sync_lt_completionTick ho.1 htotal))
  rw [completionTick_clampLength ho.1] at hu
  refine ⟨fun k hk => ?_, u, hu, hstate, hframe.byte_eq.trans (Nat.add_comm ..),
    fun i hi => hframe.read_eq hl hi⟩
  obtain ⟨v, -, hv⟩ := hstart.run hsync (hk.trans_eq (completionTick_clampLength ho.1 len).symm)
  exact ⟨v, hv 0⟩

end Sys2Proof.Machine
end

section
/-! Which input a step performs, and the operation that changes nothing (42_events_and_ports.md R162, R164;
O1, O30, O31). -/

namespace Sys2Proof.Machine

/-! ## NOP -/

theorem exec_nop_of_operable {s : State} (h : operable s) : exec .nop s = .next (beginOp s) :=
  (exec_nop_next_iff s _).mpr ⟨h, rfl⟩

/-- Settles O1: the zero word's fields are all clear and `decode` looks at no side operand beside it, and
NOP's effect is the identity on the state in which the operation starts. -/
theorem nopChangesNothing : Obligations.NopChangesNothing :=
  ⟨fun _ _ => rfl, fun _ => exec_nop_of_operable⟩

theorem step_of_no_input {s : State} (hin : s.inputs = []) : step s = exec .nop s := by
  rw [step, hin]

/-- Settles O31: with nothing presented the step is NOP. -/
theorem stepWithoutInputIsNop : Obligations.StepWithoutInputIsNop :=
  fun _ ho hin => (step_of_no_input hin).trans (exec_nop_of_operable ho)

/-! ## The parameters, then the word -/

theorem perform_of_not_paramsValid (f : State → State) {s : State} (h : ¬ paramsValid s.params) :
    perform f s = .refused .badConfig :=
  if_pos h

/-- Every operation refuses a bad configuration, START_ENCODE before it looks at its payload. -/
theorem exec_of_not_paramsValid (i : Instr) {s : State} (h : ¬ paramsValid s.params) :
    exec i s = .refused .badConfig := by
  cases i with
  | startEncode len payload => exact (if_neg fun hl => h hl.1).trans (perform_of_not_paramsValid _ h)
  | nop => exact perform_of_not_paramsValid (fun t => t) h
  | tick | rxSample level | edge d | resetDecoder => exact perform_of_not_paramsValid _ h

theorem clockCycle_of_not_paramsValid (ports : PortsIn) {s : State} (h : ¬ paramsValid s.params) :
    clockCycle ports s = .refused .badConfig :=
  if_pos h

/-- A bad configuration is refused whatever is presented (60_exceptions.md R181 (2)). -/
theorem step_of_not_paramsValid {s : State} (h : ¬ paramsValid s.params) :
    step s = .refused .badConfig := by
  unfold step
  split
  next => exact exec_of_not_paramsValid _ h
  next => exact if_pos h
  next => exact exec_of_not_paramsValid _ h
  next => exact clockCycle_of_not_paramsValid _ h
  next => exact clockCycle_of_not_paramsValid _ h

/-- Settles O30: a word's step by what `decode` answers, and the refusal of a bad configuration. -/
theorem stepPerformsDecodedOperation : Obligations.StepPerformsDecodedOperation := fun _ =>
  ⟨step_of_not_paramsValid, fun _ _ _ hp hin =>
    ⟨fun _ hi => State.dropInput_of_cons hin ▸ step_word_of_ok hp hin hi,
      fun _ => step_word_of_error hp hin⟩⟩

end Sys2Proof.Machine
end

section
/-! The outputs of the clocked block, and the step over a clock cycle: power-on reset and the loopback wiring
(42_events_and_ports.md R168 to R170, R174; O33, O39 to O41). -/

namespace Sys2Proof.Machine

/-! ## Outputs -/

/-- Settles O39: the outputs are the registers, and the code of each decode state is R80's. -/
theorem statusOutputsShowRegisters : Obligations.StatusOutputsShowRegisters := by
  intro s addr
  refine ⟨rfl, rfl, rfl, rfl, ?_⟩
  show decodeStateCode s.dec.state = _
  cases s.dec.state <;> rfl

theorem readPort_of_lt {s : State} {addr : Nat} (h : addr < s.params.frameCap) :
    readPort s addr = s.dec.buf.read addr :=
  if_pos h

theorem readPort_of_ge {s : State} {addr : Nat} (h : s.params.frameCap ≤ addr) :
    readPort s addr = 0x00#8 :=
  if_neg (Nat.not_lt.mpr h)

/-- Settles O40: `rdData` is the read port. -/
theorem readPortReturnsTheBufferByte : Obligations.ReadPortReturnsTheBufferByte :=
  fun _ _ => ⟨readPort_of_lt, readPort_of_ge⟩

/-! ## The step over a cycle -/

theorem step_cycle {s : State} {ports : PortsIn} {rest : List Input}
    (hin : s.inputs = .cycle ports :: rest) : step s = clockCycle ports s.dropInput := by
  rw [step, hin]

theorem step_loopCycle {s : State} {ports : PortsIn} {rest : List Input}
    (hin : s.inputs = .loopCycle ports :: rest) :
    step s = clockCycle (wireLoopback ports s) s.dropInput := by
  rw [step, hin]

theorem clockCycle_of_rst {ports : PortsIn} {s : State} (hp : paramsValid s.params)
    (hr : ports.rst = true) : clockCycle ports s = .next (powerOnReset s) := by
  rw [clockCycle, if_neg (not_not.mpr hp), if_pos hr]

/-- Settles O33: `powerOnReset` builds the state from the parameters and the later inputs alone. -/
theorem rstCycleAppliesPowerOnReset : Obligations.RstCycleAppliesPowerOnReset := by
  intro s ports rest hp hr hin
  rw [step_cycle hin, State.dropInput_of_cons hin, clockCycle_of_rst (s := { s with inputs := rest }) hp hr]
  rfl

/-- Settles O41: both steps drop their input and perform the cycle with the same ports. -/
theorem loopbackCycleSamplesTx : Obligations.LoopbackCycleSamplesTx := by
  intro s ports rest hin
  rw [step_loopCycle hin, step_cycle rfl, State.dropInput_of_cons hin]
  rfl

end Sys2Proof.Machine
end

section
/-! The four operations of a clock cycle, each on the state left by the one before, and `frame_ready` as a
pulse of one cycle (10_state.md R39, 42_events_and_ports.md R166, R167, R171; O35, O37). -/

namespace Sys2Proof.Machine

/-! ## An operation that its port calls for, or not -/

/-- The effect of `runOps` over `if c then [i] else []`: the operation, or only that nothing is notified. -/
def performIf (c : Bool) (i : Instr) (s : State) : Outcome :=
  if c then exec i s else .next (beginOp s)

theorem performIf_next {c : Bool} {i : Instr} {s t : State} (h : performIf c i s = .next t) :
    t = if c then effect i (beginOp s) else beginOp s := by
  cases c with
  | true => exact (exec_next h).2
  | false =>
    cases h
    rfl

/-- An absent operation is as good as a NOP. -/
theorem performIf_of_nop {c : Bool} {i : Instr} {s t : State}
    (h : exec (if c = true then i else .nop) s = .next t) : performIf c i s = .next t := by
  cases c with
  | true => exact h
  | false =>
    obtain ⟨-, rfl⟩ := (exec_nop_next_iff s t).mp h
    rfl

theorem performIf_params {c : Bool} {i : Instr} {s t : State} (h : performIf c i s = .next t) :
    t.params = s.params := by
  rw [performIf_next h]
  split <;> simp

theorem performIf_inputs {c : Bool} {i : Instr} {s t : State} (h : performIf c i s = .next t) :
    t.inputs = s.inputs := by
  rw [performIf_next h]
  split <;> simp

/-- No operation reads `out.ready` of the operation before it. -/
theorem exec_beginOp (i : Instr) (s : State) : exec i (beginOp s) = exec i s := by
  cases i <;> rfl

theorem runOps_beginOp (is : List Instr) (s : State) : runOps is (beginOp s) = runOps is s := by
  cases is with
  | nil => rfl
  | cons i rest => rw [runOps, runOps, exec_beginOp]

theorem runOps_if_append_next_iff (c : Bool) (i : Instr) (rest : List Instr) (s v : State) :
    runOps ((if c then [i] else []) ++ rest) s = .next v ↔
      ∃ t u, performIf c i s = .next t ∧ runOps rest t = .next u ∧
        v = { u with outReady := t.outReady || u.outReady } := by
  cases c with
  | true => exact runOps_cons_next_iff i rest s v
  | false => simp [performIf, runOps_beginOp, eq_comm]

/-! ## The four operations of a cycle -/

/-- What START_ENCODE's ports call for (42_events_and_ports.md R165, R171). -/
def portStart (p : Params) (ports : PortsIn) : Instr :=
  .startEncode ports.startLen (payloadBytes p.payloadCap ports.startPayload)

/-- The four operations of the cycle complete one after the other, through `a`, `b` and `c`, and leave
`d`. -/
structure CycleRun (ports : PortsIn) (s a b c d : State) : Prop where
  ticked : performIf ports.tick .tick s = .next a
  sampled : exec (.rxSample ports.rx) a = .next b
  started : performIf ports.start (portStart s.params ports) b = .next c
  reset : performIf ports.resetDecoder .resetDecoder c = .next d

section
variable {ports : PortsIn} {s a b c d v : State}

theorem runOps_cycleOps_next_iff :
    runOps (cycleOps s.params ports) s = .next v ↔
      ∃ a b c d, CycleRun ports s a b c d ∧
        v = { d with outReady := a.outReady || b.outReady || c.outReady || d.outReady } := by
  have hops : cycleOps s.params ports =
      (if ports.tick then [.tick] else []) ++ .rxSample ports.rx ::
        ((if ports.start then [portStart s.params ports] else []) ++
          ((if ports.resetDecoder then [.resetDecoder] else []) ++ [])) := by
    simp [cycleOps, portStart]
  rw [hops, runOps_if_append_next_iff]
  simp only [runOps_cons_next_iff, runOps_if_append_next_iff, runOps_nil, Host.Outcome.next.injEq]
  constructor
  · rintro ⟨a, -, ha, ⟨b, -, hb, ⟨c, -, hc, ⟨d, -, hd, rfl, rfl⟩, rfl⟩, rfl⟩, rfl⟩
    exact ⟨a, b, c, d, ⟨ha, hb, hc, hd⟩, by simp [beginOp, Bool.or_assoc]⟩
  · rintro ⟨a, b, c, d, ⟨ha, hb, hc, hd⟩, rfl⟩
    exact ⟨a, _, ha, ⟨b, _, hb, ⟨c, _, hc, ⟨d, _, hd, rfl, rfl⟩, rfl⟩, rfl⟩, by
      simp [beginOp, Bool.or_assoc]⟩

/-- START_ENCODE notifies nobody and leaves the decoder alone. -/
theorem CycleRun.after_start (h : CycleRun ports s a b c d) :
    c.outReady = false ∧ c.dec = b.dec := by
  rw [performIf_next h.started]
  split <;> exact ⟨rfl, rfl⟩

/-- RESET_DECODER, called for or not, notifies nobody. -/
theorem CycleRun.outReady_reset (h : CycleRun ports s a b c d) : d.outReady = false := by
  rw [performIf_next h.reset]
  split <;> rfl

theorem CycleRun.params_eq (h : CycleRun ports s a b c d) : a.params = s.params :=
  performIf_params h.ticked

theorem CycleRun.inputs_eq (h : CycleRun ports s a b c d) : d.inputs = s.inputs := by
  obtain ⟨-, hb⟩ := exec_next h.sampled
  calc d.inputs = c.inputs := performIf_inputs h.reset
    _ = b.inputs := performIf_inputs h.started
    _ = a.inputs := by rw [hb, effect_inputs, beginOp_inputs]
    _ = s.inputs := performIf_inputs h.ticked

/-- A cycle without `rst` is its four operations, and shows whether TICK or RX_SAMPLE has notified. -/
theorem clockCycle_next_iff (hr : ports.rst = false) :
    clockCycle ports s = .next v ↔
      ∃ a b c d, CycleRun ports s a b c d ∧
        v = { d with
          frameReadyQ := a.outReady || b.outReady, outReady := a.outReady || b.outReady } := by
  constructor
  · intro h
    obtain ⟨-, ⟨hrst, -⟩ | ⟨-, u, hu, rfl⟩⟩ := clockCycle_next h
    · simp [hr] at hrst
    · obtain ⟨a, b, c, d, hrun, rfl⟩ := runOps_cycleOps_next_iff.mp hu
      exact ⟨a, b, c, d, hrun, by simp [hrun.after_start.1, hrun.outReady_reset]⟩
  · rintro ⟨a, b, c, d, hrun, rfl⟩
    have hp : paramsValid s.params := hrun.params_eq ▸ (exec_next hrun.sampled).1.1
    rw [clockCycle, if_neg (not_not.mpr hp), hr, if_neg Bool.false_ne_true,
      runOps_cycleOps_next_iff.mpr ⟨a, b, c, d, hrun, rfl⟩]
    simp [hrun.after_start.1, hrun.outReady_reset]

end

/-- The port's byte as the statement writes it: a division in place of a shift. -/
theorem payloadByte_eq (port i : Nat) : payloadByte port i = BitVec.ofNat 8 (port / 2 ^ (8 * i)) := by
  rw [payloadByte, Nat.shiftRight_eq_div_pow]

/-- Settles O35: an absent operation stands as a NOP in the statement. -/
theorem clockCycleOrder : Obligations.ClockCycleOrder := by
  intro s a b c d ports rest hin hr ha hb hc hd
  simp only [← payloadByte_eq] at hc
  rw [step_cycle hin, State.dropInput_of_cons hin, clockCycle_next_iff hr]
  exact ⟨a, b, c, d,
    ⟨performIf_of_nop ha, hb, performIf_of_nop (i := portStart s.params ports) hc, performIf_of_nop hd⟩,
    rfl⟩

/-! ## `frame_ready` -/

theorem performIf_notifies_iff {c : Bool} {i : Instr} {s t : State}
    (h : performIf c i s = .next t) :
    t.outReady = true ↔ s.dec.state = .dataSynchronized ∧ t.dec.state = .dataReady := by
  cases c with
  | true => exact notificationExactlyOnCompletion i s t h
  | false =>
    cases h
    exact notifiesOnCompletion_of_same_state rfl rfl

theorem nextDecodeState_of_dataReady {i : Instr} {s : State} (hi : i ≠ .resetDecoder)
    (hs : s.dec.state = .dataReady) : nextDecodeState i s = .dataReady := by
  simp [nextDecodeState, hi, hs]

section
variable {ports : PortsIn} {s a b c d : State}

/-- TICK does not enter DataSynchronized. -/
theorem CycleRun.ticked_ne_dataSynchronized (h : CycleRun ports s a b c d)
    (hs : s.dec.state ≠ .dataSynchronized) : a.dec.state ≠ .dataSynchronized := by
  cases ht : ports.tick with
  | true =>
    have htick : exec .tick s = .next a := by simpa [performIf, ht] using h.ticked
    rwa [decodeStateTransitions _ _ _ htick, nextDecodeState_tick, if_neg fun hw => hs hw.1]
  | false => rwa [performIf_next h.ticked, ht]

/-- A cycle that notifies starts in DataSynchronized: its TICK does not enter that state, and its RX_SAMPLE
notifies in no other. -/
theorem CycleRun.dataSynchronized_of_notifies (h : CycleRun ports s a b c d)
    (hn : (a.outReady || b.outReady) = true) : s.dec.state = .dataSynchronized := by
  by_contra hs
  rcases (Bool.or_eq_true ..).mp hn with ha | hb
  · exact hs ((performIf_notifies_iff h.ticked).mp ha).1
  · exact h.ticked_ne_dataSynchronized hs
      ((notificationExactlyOnCompletion _ _ _ h.sampled).mp hb).1

/-- A cycle that notifies is in DataReady after its RX_SAMPLE, and only its RESET_DECODER leaves that. -/
theorem CycleRun.ends_ne_dataSynchronized (h : CycleRun ports s a b c d)
    (hn : (a.outReady || b.outReady) = true) : d.dec.state ≠ .dataSynchronized := by
  have hb : b.dec.state = .dataReady := by
    rcases (Bool.or_eq_true ..).mp hn with ha | hb
    · have hready := ((performIf_notifies_iff h.ticked).mp ha).2
      rw [decodeStateTransitions _ _ _ h.sampled,
        nextDecodeState_of_dataReady (i := .rxSample ports.rx) nofun hready]
    · exact ((notificationExactlyOnCompletion _ _ _ h.sampled).mp hb).2
  rw [performIf_next h.reset]
  split
  · exact nofun
  · rw [beginOp_dec, h.after_start.2, hb]
    exact nofun

end

/-- A cycle that sets `frame_ready_q` takes the decoder out of DataSynchronized. -/
theorem clockCycle_frameReady {ports : PortsIn} {s t : State} (h : clockCycle ports s = .next t)
    (hq : t.frameReadyQ = true) :
    s.dec.state = .dataSynchronized ∧ t.dec.state ≠ .dataSynchronized := by
  obtain ⟨-, ⟨-, rfl⟩ | ⟨hr, -⟩⟩ := clockCycle_next h
  · cases hq
  · obtain ⟨a, b, c, d, hrun, rfl⟩ := (clockCycle_next_iff hr).mp h
    exact ⟨hrun.dataSynchronized_of_notifies hq, hrun.ends_ne_dataSynchronized hq⟩

theorem clockCycle_inputs {ports : PortsIn} {s t : State} (h : clockCycle ports s = .next t) :
    t.inputs = s.inputs := by
  obtain ⟨-, ⟨-, rfl⟩ | ⟨hr, -⟩⟩ := clockCycle_next h
  · rfl
  · obtain ⟨a, b, c, d, hrun, rfl⟩ := (clockCycle_next_iff hr).mp h
    exact hrun.inputs_eq

/-- Settles O37: the second cycle would have to start in DataSynchronized, which the first has left. -/
theorem frameReadyIsAOneCyclePulse : Obligations.FrameReadyIsAOneCyclePulse := by
  intro s t u ports₁ ports₂ rest hin ht hq hu
  rw [step_cycle hin] at ht
  have hin₂ : t.inputs = .cycle ports₂ :: rest := by
    rw [clockCycle_inputs ht, State.dropInput_inputs, hin, List.tail_cons]
  rw [step_cycle hin₂] at hu
  by_contra hq₂
  exact (clockCycle_frameReady ht hq).2 (clockCycle_frameReady hu (Bool.of_not_eq_false hq₂)).1

end Sys2Proof.Machine
end

section
/-! What the spec's invariants ask of the registers is kept by every operation, whatever the buffers hold, so
every clock cycle completes; and RESET_DECODER, the cycle's last operation, has the last word
(10_state.md R43, R44, 42_events_and_ports.md R166; O38). -/

namespace Sys2Proof.Machine

/-! ## The decoder's registers do not depend on `DecBuf` -/

/-- The state with an empty `DecBuf`: it keeps every register, and its buffer is in the canonical form. -/
def clearDecBuf (s : State) : State := { s with dec.buf := [] }

/-- What `f` writes to the registers does not depend on `DecBuf`. -/
def IgnoresDecBuf (f : State → State) : Prop :=
  ∀ s, clearDecBuf (f (clearDecBuf s)) = clearDecBuf (f s)

theorem ignoresDecBuf_id : IgnoresDecBuf fun s => s := fun _ => rfl

theorem IgnoresDecBuf.comp {f g : State → State} (hf : IgnoresDecBuf f) (hg : IgnoresDecBuf g) :
    IgnoresDecBuf fun s => f (g s) := fun s => by
  rw [← hf (g (clearDecBuf s)), hg s, hf (g s)]

theorem ignoresDecBuf_ite {c : State → Prop} [DecidablePred c] {f g : State → State}
    (hc : ∀ s, c (clearDecBuf s) ↔ c s) (hf : IgnoresDecBuf f) (hg : IgnoresDecBuf g) :
    IgnoresDecBuf fun s => if c s then f s else g s := fun s => by
  show clearDecBuf (if c (clearDecBuf s) then _ else _) = clearDecBuf (if c s then _ else _)
  rw [apply_ite clearDecBuf, apply_ite clearDecBuf, hf, hg, if_congr (hc s) rfl rfl]

theorem ignoresDecBuf_recordEdge (d : Dir) : IgnoresDecBuf (recordEdge d) := fun _ => rfl

theorem ignoresDecBuf_edgeNotSynchronized (d : Dir) : IgnoresDecBuf (edgeNotSynchronized d) :=
  ignoresDecBuf_ite (fun _ => Iff.rfl)
    (ignoresDecBuf_ite (fun _ => Iff.rfl) (fun _ => rfl) fun _ => rfl) fun _ => rfl

theorem ignoresDecBuf_edgeBitSynchronized (d : Dir) : IgnoresDecBuf (edgeBitSynchronized d) := by
  have hmatch : IgnoresDecBuf matchIfSync :=
    ignoresDecBuf_ite (fun _ => Iff.rfl) (fun _ => rfl) ignoresDecBuf_id
  have hshift : IgnoresDecBuf (shiftBit d) := fun _ => rfl
  exact ignoresDecBuf_ite (fun _ => Iff.rfl)
    ((ignoresDecBuf_recordEdge d).comp (hmatch.comp hshift)) (ignoresDecBuf_recordEdge d)

theorem ignoresDecBuf_edgeDataSynchronized (d : Dir) : IgnoresDecBuf (edgeDataSynchronized d) := by
  have hextract : IgnoresDecBuf (extractBit d) :=
    ignoresDecBuf_ite (fun _ => Iff.rfl) (fun _ => rfl) ignoresDecBuf_id
  have hrestart : IgnoresDecBuf restartCounter := fun _ => rfl
  have hadvance : IgnoresDecBuf advanceDecCursor :=
    ignoresDecBuf_ite (fun _ => Iff.rfl) (fun _ => rfl) fun _ => rfl
  have hfull : IgnoresDecBuf completeIfFull :=
    ignoresDecBuf_ite (fun _ => Iff.rfl) (fun _ => rfl) ignoresDecBuf_id
  exact ignoresDecBuf_ite (fun _ => Iff.rfl)
    (hfull.comp <| hadvance.comp <| hrestart.comp <| hextract.comp (ignoresDecBuf_recordEdge d))
    (ignoresDecBuf_recordEdge d)

theorem ignoresDecBuf_edge (d : Dir) : IgnoresDecBuf (edge d) := fun s => by
  have hstate : (clearDecBuf s).dec.state = s.dec.state := rfl
  unfold edge
  rw [hstate]
  cases s.dec.state with
  | dataReady => rfl
  | notSynchronized => exact ignoresDecBuf_edgeNotSynchronized d s
  | bitSynchronized => exact ignoresDecBuf_edgeBitSynchronized d s
  | dataSynchronized => exact ignoresDecBuf_edgeDataSynchronized d s

theorem ignoresDecBuf_decTick : IgnoresDecBuf decTick := by
  have hcount : IgnoresDecBuf countTick := fun _ => rfl
  have hexpired : IgnoresDecBuf completeIfExpired :=
    ignoresDecBuf_ite (fun _ => Iff.rfl) (fun _ => rfl) ignoresDecBuf_id
  exact ignoresDecBuf_ite (fun _ => Iff.rfl) (hexpired.comp hcount) ignoresDecBuf_id

/-! ## Every operation keeps `coreInv` -/

/-- The decode session's half of `coreInv`: `decOk` without its clauses on the buffer. -/
def decRegistersOk (s : State) : Prop := decOk (clearDecBuf s)

theorem decRegistersOk_ofDecoder : OfDecoder decRegistersOk := fun s t hp hd h =>
  decOk_ofDecoder (clearDecBuf s) (clearDecBuf t) hp (congrArg ({ · with buf := [] }) hd) h

/-- An update that keeps `decOk` keeps it of the registers, where it ignores the buffer. -/
theorem IgnoresDecBuf.keeps_decRegistersOk {f : State → State} (hf : IgnoresDecBuf f) {s : State}
    (hkeeps : decOk (clearDecBuf s) → decOk (f (clearDecBuf s))) (h : decRegistersOk s) :
    decRegistersOk (f s) := by
  rw [decRegistersOk, ← hf s]
  exact { hkeeps h with buf_wf := ⟨.nil, nofun⟩, buf_below := nofun }

/-- `coreInv` is the configuration's validity and the registers' half for each session. -/
theorem coreInv_iff (s : State) :
    coreInv s ↔ paramsValid s.params ∧ EncRegistersOk s.params s.enc ∧ decRegistersOk s := by
  constructor
  · rintro ⟨ho, hidle⟩
    have ⟨hp, ⟨_, _, _, hdb, hdt, hel⟩, ⟨_, hda⟩, hdec⟩ := ho
    exact ⟨hp, encRegistersOk_of_operable ho, hdb, hdt, hel,
      (decControlOk_iff (s := clearDecBuf s) hdt).mpr ⟨hda, hdec, hidle⟩, ⟨.nil, nofun⟩, nofun⟩
  · rintro ⟨hp, he, hd⟩
    obtain ⟨hda, hdec, hidle⟩ := (decControlOk_iff (s := clearDecBuf s) hd.total_eq).mp hd.control
    exact ⟨⟨hp, ⟨he.byte_le, he.total_le, he.phase_lt, hd.byte_le, hd.total_eq, hd.elapsed_lt⟩,
      ⟨he.byte_lt_total, hda⟩, hdec⟩, hidle⟩

theorem encRegistersOk_ofEncoder : OfEncoder fun s => EncRegistersOk s.params s.enc :=
  fun s t hp he h => by
    show EncRegistersOk t.params t.enc
    rwa [hp, he]

theorem exec_keeps_coreInv {i : Instr} {s t : State} (h : exec i s = .next t) (hs : coreInv s) :
    coreInv t := by
  obtain ⟨hp, he, hd⟩ := (coreInv_iff s).mp hs
  refine (coreInv_iff t).mpr ⟨exec_params h ▸ hp, ?_, ?_⟩
  · exact exec_keeps_encoder encRegistersOk_ofEncoder
      (fun u ho _ => encRegistersOk_of_operable (encTick_operable ho))
      (fun len payload u ho _ =>
        encRegistersOk_of_operable (startEncode_operable ho len payload)) h he
  · exact exec_keeps_decoder decRegistersOk_ofDecoder
      (fun d _ hp => (ignoresDecBuf_edge d).keeps_decRegistersOk (edge_decOk d hp))
      (fun _ _ => ignoresDecBuf_decTick.keeps_decRegistersOk decTick_decOk)
      (fun _ hp => IgnoresDecBuf.keeps_decRegistersOk (f := resetDecoder) (fun _ => rfl)
        (resetDecoder_decOk hp)) h hd

/-! ## A cycle completes -/

theorem performIf_completes {c : Bool} {i : Instr} {s : State}
    (hexec : exec i s = .next (effect i (beginOp s))) (hs : coreInv s) :
    ∃ t, performIf c i s = .next t ∧ coreInv t := by
  cases c with
  | true => exact ⟨_, hexec, exec_keeps_coreInv hexec hs⟩
  | false => exact ⟨beginOp s, rfl, hs⟩

theorem length_payloadBytes (payloadCap port : Nat) :
    (payloadBytes payloadCap port).length = payloadCap := by
  simp [payloadBytes]

/-- Each of the four operations completes where the one before has left the block. -/
theorem cycleRun_of_coreInv (ports : PortsIn) {s : State} (h : coreInv s) :
    ∃ a b c d, CycleRun ports s a b c d ∧ coreInv d := by
  obtain ⟨a, hta, ha⟩ := performIf_completes (c := ports.tick) (exec_tick_of_operable h.1) h
  have hsample := exec_rxSample_of_operable ports.rx ha.1
  have hb := exec_keeps_coreInv hsample ha
  have hparams := (exec_params hsample).trans (performIf_params hta)
  have hlength : (payloadBytes s.params.payloadCap ports.startPayload).length =
      (rxSample ports.rx (beginOp a)).params.payloadCap := by
    rw [length_payloadBytes, hparams]
  obtain ⟨c, htc, hc⟩ := performIf_completes (c := ports.start) (i := portStart s.params ports)
    (exec_startEncode_of_operable hb.1 hlength) hb
  obtain ⟨d, htd, hd⟩ := performIf_completes (c := ports.resetDecoder)
    (exec_resetDecoder_of_operable hc.1) hc
  exact ⟨a, _, c, d, ⟨hta, hsample, htc, htd⟩, hd⟩

/-! ## The reset of the decoder -/

/-- The decoder is in NotSynchronized and idle, as both resets leave it (10_state.md R45,
41_decoder.md R143). -/
def DecoderIdle (s : State) : Prop :=
  s.dec.state = .notSynchronized ∧ s.dec.active = false ∧ s.dec.prevEdge = .none ∧ s.dec.elapsed = 0

theorem CycleRun.decoderIdle {ports : PortsIn} {s a b c d : State} (h : CycleRun ports s a b c d)
    (hreset : ports.resetDecoder = true) : DecoderIdle d := by
  rw [performIf_next h.reset, if_pos hreset]
  exact ⟨rfl, rfl, rfl, rfl⟩

/-- Settles O38: with `rst` the cycle is a power-on reset, and without it the RESET_DECODER is the last of
its operations, all of which complete. -/
theorem resetDecoderWinsTheCycle : Obligations.ResetDecoderWinsTheCycle := by
  intro s ports rest hs hin hreset
  rw [step_cycle hin]
  cases hr : ports.rst with
  | true =>
    have ⟨⟨hp, _⟩, _⟩ := hs
    exact ⟨_, clockCycle_of_rst (s := s.dropInput) hp hr, rfl, rfl, rfl, rfl⟩
  | false =>
    obtain ⟨a, b, c, d, hrun, -⟩ := cycleRun_of_coreInv ports (s := s.dropInput) hs
    exact ⟨_, (clockCycle_next_iff hr).mpr ⟨a, b, c, d, hrun, rfl⟩, hrun.decoderIdle hreset⟩

end Sys2Proof.Machine
end

section
/-! When an operation has a meaning, and what a received frame keeps until RESET_DECODER
(60_exceptions.md R180, R181 (3), R195 (c); O17, O18, O23). -/

namespace Sys2Proof.Machine

/-! ## Where the guard lets an operation through -/

/-- Settles O17: behind START_ENCODE's check of its side operand there is only the guard. -/
theorem operationsCompleteWhereOperable : Obligations.OperationsCompleteWhereOperable :=
  fun i _ ho hwf => ⟨_, (exec_of_wellFormed hwf).trans (perform_of_operable (effect i) ho)⟩

theorem perform_of_not_valuesOk (f : State → State) {s : State} (hp : paramsValid s.params)
    (hv : ¬ valuesOk s) : perform f s = .refused .unreachableValue := by
  rw [perform, if_neg (not_not.mpr hp), if_pos hv]

/-- Settles O18: the guard refuses the state whatever the effect behind it. -/
theorem unreachableStateRefused : Obligations.UnreachableStateRefused :=
  fun i _ hp hv hwf => (exec_of_wellFormed hwf).trans (perform_of_not_valuesOk (effect i) hp hv)

/-! ## DataReady -/

/-- In DataReady the session is over (10_state.md R44 (a)). -/
theorem inactive_of_dataReady {s : State} (ho : operable s) (hs : s.dec.state = .dataReady) :
    s.dec.active = false := by
  obtain ⟨-, -, -, hready, -⟩ := ho
  exact hready hs

theorem edge_dec_of_dataReady (d : Dir) {s : State} (hs : s.dec.state = .dataReady) :
    (edge d s).dec = s.dec := by
  rw [edge_dataReady d hs]

/-- In DataReady EDGE is ignored, alone or within RX_SAMPLE, and DEC_TICK does not count
(41_decoder.md R137, R140). -/
theorem exec_dec_of_dataReady {i : Instr} {s t : State} (h : exec i s = .next t)
    (hi : i ≠ .resetDecoder) (hs : s.dec.state = .dataReady) : t.dec = s.dec := by
  obtain ⟨ho, rfl⟩ := exec_next h
  cases i with
  | nop => rfl
  | tick =>
    have hidle := inactive_of_dataReady ho hs
    show (tick (beginOp s)).dec = s.dec
    rw [(tick_eq_decTick _).1, decTick_of_inactive (s := beginOp s) hidle, beginOp_dec]
  | rxSample level =>
    show (rxSample level (beginOp s)).dec = s.dec
    rcases rxSample_cases level (beginOp s) with ⟨-, h⟩ | ⟨-, -, h⟩ | ⟨-, -, h⟩ <;> rw [h]
    · exact initDetector_dec level _
    · exact beginOp_dec s
    · exact edge_dec_of_dataReady _ (s := recordLevel level (beginOp s)) hs
  | edge d => exact edge_dec_of_dataReady d (s := beginOp s) hs
  | resetDecoder => exact absurd rfl hi
  | startEncode len payload => exact startEncode_dec len payload (beginOp s)

/-- A notification comes from DataSynchronized only (41_decoder.md R146). -/
theorem exec_outReady_of_dataReady {i : Instr} {s t : State} (h : exec i s = .next t)
    (hs : s.dec.state = .dataReady) : t.outReady = false :=
  Bool.eq_false_iff.mpr fun hn => by
    have hsync := ((notificationExactlyOnCompletion i s t h).mp hn).1
    rw [hs] at hsync
    cases hsync

/-- Settles O23, by induction on the sequence: each operation leaves the decode session, hence DataReady,
to the next. -/
theorem dataReadyLastsUntilReset : Obligations.DataReadyLastsUntilReset := by
  intro is
  induction is with
  | nil =>
    intro s t _ _ h
    cases h
    exact ⟨rfl, rfl⟩
  | cons i rest ih =>
    intro s t hs hmem h
    obtain ⟨hi, hrest⟩ := List.forall_mem_cons.mp hmem
    obtain ⟨u, v, hu, hv, rfl⟩ := (runOps_cons_next_iff i rest s t).mp h
    have hdec := exec_dec_of_dataReady hu hi hs
    obtain ⟨hvdec, hvready⟩ := ih u v (by rw [hdec, hs]) hrest hv
    exact ⟨hvdec.trans hdec, by rw [exec_outReady_of_dataReady hu hs, hvready, Bool.or_self]⟩

end Sys2Proof.Machine
end

section
/-! What `DecBuf` shows of a frame, and that the frame only grows until the decoder is reset
(41_decoder.md R132, R134, R136, 70_reset_and_hazards.md R213; O48). -/

namespace Sys2Proof.Machine

/-! ## What `DecBuf` shows, bit by bit -/

/-- The decoder's cursor as a position in the frame's wire sequence: the number of bits before it. -/
def framePosition (d : DecSession) : Nat := 8 * d.byte + d.bit.toNat

/-- `receivedFrameOk` in wire positions: the sync bytes, and no bit set from the cursor on. -/
structure ShowsFrame (p : Params) (d : DecSession) : Prop where
  sync0 : d.buf.read 0 = syncByte0 p
  sync1 : d.buf.read 1 = syncByte1 p
  zeros : ∀ (i : Nat) (k : BitVec 3), framePosition d ≤ 8 * i + k.toNat →
    wirebit p.order (d.buf.read i) k = false

theorem wirebit_zero (o : BitOrder) (k : BitVec 3) : wirebit o 0x00#8 k = false :=
  BitVec.getLsbD_zero

theorem showsFrame_iff (p : Params) (d : DecSession) :
    ShowsFrame p d ↔
      d.buf.read 0 = syncByte0 p ∧ d.buf.read 1 = syncByte1 p ∧
      (∀ i, d.byte < i → d.buf.read i = 0x00#8) ∧
      (∀ k : BitVec 3, d.bit.toNat ≤ k.toNat → wirebit p.order (d.buf.read d.byte) k = false) := by
  have hbit := d.bit.isLt
  constructor
  · rintro ⟨h0, h1, hz⟩
    refine ⟨h0, h1, fun i hi => ?_, fun k hk => hz _ k (Nat.add_le_add_left hk _)⟩
    refine eq_of_wirebit_eq (o := p.order) fun k => ?_
    rw [wirebit_zero, hz i k (by rw [framePosition]; omega)]
  · rintro ⟨h0, h1, hbytes, hbits⟩
    refine ⟨h0, h1, fun i k hk => ?_⟩
    have hkb := k.isLt
    rw [framePosition] at hk
    rcases Nat.lt_or_ge d.byte i with hi | hi
    · rw [hbytes i hi, wirebit_zero]
    · obtain rfl : i = d.byte := by omega
      exact hbits k (by omega)

theorem receivedFrameOk_iff (s : State) :
    receivedFrameOk s ↔ (inFrame s → ShowsFrame s.params s.dec) :=
  forall_congr' fun _ => (showsFrame_iff s.params s.dec).symm

/-- The frame in `t` continues the one in `s`: the cursor has not gone back, and every bit before the old
cursor is as it was. -/
structure ContinuesFrame (s t : State) : Prop where
  stays : inFrame t
  params_eq : t.params = s.params
  position_le : framePosition s.dec ≤ framePosition t.dec
  kept : ∀ (i : Nat) (k : BitVec 3), 8 * i + k.toNat < framePosition s.dec →
    wirebit s.params.order (t.dec.buf.read i) k = wirebit s.params.order (s.dec.buf.read i) k

theorem ContinuesFrame.trans {s t u : State} (hst : ContinuesFrame s t)
    (htu : ContinuesFrame t u) : ContinuesFrame s u := by
  refine ⟨htu.stays, htu.params_eq.trans hst.params_eq, hst.position_le.trans htu.position_le,
    fun i k hk => ?_⟩
  have hkept := htu.kept i k (hk.trans_le hst.position_le)
  rw [hst.params_eq] at hkept
  exact hkept.trans (hst.kept i k hk)

theorem ContinuesFrame.extractedBitsKept {s t : State} (h : ContinuesFrame s t) :
    extractedBitsKept s t := by
  intro _ _
  have hsb := s.dec.bit.isLt
  have htb := t.dec.bit.isLt
  have hle := h.position_le
  have hkept := h.kept
  simp only [framePosition] at hle hkept
  refine ⟨by omega, fun i hi => eq_of_wirebit_eq (o := s.params.order) fun k => ?_,
    fun k hk => hkept _ k (by omega)⟩
  have hkb := k.isLt
  exact hkept i k (by omega)

/-! ## Updates that leave the frame alone -/

/-- `t` has the `DecBuf` and the cursor of `s`, and is in a frame exactly if `s` is. -/
structure SameFrame (s t : State) : Prop where
  params_eq : t.params = s.params
  buf_eq : t.dec.buf = s.dec.buf
  byte_eq : t.dec.byte = s.dec.byte
  bit_eq : t.dec.bit = s.dec.bit
  inFrame_iff : inFrame t ↔ inFrame s

theorem SameFrame.of_dec_eq {s t : State} (hp : t.params = s.params) (hd : t.dec = s.dec) :
    SameFrame s t := by
  constructor <;> simp only [hp, hd, inFrame]

theorem SameFrame.position_eq {s t : State} (h : SameFrame s t) :
    framePosition t.dec = framePosition s.dec := by
  rw [framePosition, h.byte_eq, h.bit_eq, framePosition]

theorem SameFrame.showsFrame {s t : State} (h : SameFrame s t) (hs : ShowsFrame s.params s.dec) :
    ShowsFrame t.params t.dec := by
  constructor <;> rw [h.params_eq, h.buf_eq]
  · exact hs.sync0
  · exact hs.sync1
  · rw [h.position_eq]
    exact hs.zeros

theorem SameFrame.receivedFrameOk {s t : State} (h : SameFrame s t) (hs : receivedFrameOk s) :
    receivedFrameOk t :=
  (receivedFrameOk_iff t).mpr fun hf =>
    h.showsFrame ((receivedFrameOk_iff s).mp hs (h.inFrame_iff.mp hf))

theorem SameFrame.continuesFrame {s t : State} (h : SameFrame s t) (hs : inFrame s) :
    ContinuesFrame s t :=
  ⟨h.inFrame_iff.mpr hs, h.params_eq, h.position_eq.ge, fun i k _ => by rw [h.buf_eq]⟩

theorem ContinuesFrame.of_dec_eq {s t : State} (hs : inFrame s) (hp : t.params = s.params)
    (hd : t.dec = s.dec) : ContinuesFrame s t :=
  (SameFrame.of_dec_eq hp hd).continuesFrame hs

theorem sameFrame_recordEdge (d : Dir) (s : State) : SameFrame s (recordEdge d s) :=
  ⟨rfl, rfl, rfl, rfl, Iff.rfl⟩

/-- `complete()` ends the reception and leaves the frame in `DecBuf` (41_decoder.md R138). -/
theorem sameFrame_complete {s : State} (hs : s.dec.state = .dataSynchronized) :
    SameFrame s (complete s) :=
  ⟨rfl, rfl, rfl, rfl, iff_of_true (.inr rfl) (.inl hs)⟩

theorem sameFrame_completeIfFull {s : State} (hs : s.dec.state = .dataSynchronized) :
    SameFrame s (completeIfFull s) := by
  unfold completeIfFull
  split
  · exact sameFrame_complete hs
  · exact .of_dec_eq rfl rfl

theorem sameFrame_decTick (s : State) : SameFrame s (decTick s) := by
  rcases decTick_cases s with ⟨-, h⟩ | ⟨-, hs, -, h⟩ | ⟨-, -, h⟩ <;> rw [h]
  · exact .of_dec_eq rfl rfl
  · exact ⟨rfl, rfl, rfl, rfl, iff_of_true (.inr rfl) (.inl hs)⟩
  · exact ⟨rfl, rfl, rfl, rfl, Iff.rfl⟩

/-! ## The sync match and the extraction of a bit -/

/-- The match stores the sync field and clears every byte behind it (41_decoder.md R132). -/
theorem showsFrame_syncMatch {s : State} (hm : s.dec.shift = s.params.sync)
    (hb : s.dec.buf.below s.params.frameCap) : ShowsFrame s.params (syncMatch s).dec := by
  have hzero (i : Nat) (hi : 2 ≤ i) : (syncMatch s).dec.buf.read i = 0x00#8 := by
    rw [syncMatch_dec_buf, read_storeMatch, if_neg (by omega : i ≠ 1), if_neg (by omega : i ≠ 0)]
    split
    · rfl
    · exact Memory.read_of_below hb (by omega)
  refine (showsFrame_iff ..).mpr ⟨?_, ?_, fun i hi => hzero i (Nat.le_of_lt hi), fun k _ => ?_⟩
  · rw [syncMatch_dec_buf, read_storeMatch, hm]
    rfl
  · rw [syncMatch_dec_buf, read_storeMatch, hm]
    rfl
  · rw [hzero _ (syncMatch_dec_byte s).ge, wirebit_zero]

theorem framePosition_extracted (d : Dir) (s : State) :
    framePosition (extracted d s).dec = framePosition s.dec + 1 := by
  have h := advanceDecCursor_bits (restartCounter (extractBit d (recordEdge d s)))
  simpa [framePosition, extracted] using h

theorem extracted_dec_buf (d : Dir) (s : State) :
    (extracted d s).dec.buf = (extractBit d s).dec.buf := by
  simp [extracted]

/-- An extraction writes the bit at the cursor and no other (41_decoder.md R134). -/
theorem wirebit_extracted_other (d : Dir) {s : State} {i : Nat} {k : BitVec 3}
    (h : 8 * i + k.toNat ≠ framePosition s.dec) :
    wirebit s.params.order ((extracted d s).dec.buf.read i) k =
      wirebit s.params.order (s.dec.buf.read i) k := by
  rw [extracted_dec_buf]
  by_cases hi : i = s.dec.byte
  · subst hi
    rw [wirebit_extractBit, if_neg]
    rintro ⟨rfl, -⟩
    exact h rfl
  · rw [read_extractBit_other d hi]

theorem continuesFrame_extracted (d : Dir) {s : State} (hs : s.dec.state = .dataSynchronized) :
    ContinuesFrame s (extracted d s) :=
  ⟨.inl ((extracted_dec_state d s).trans hs), by simp [extracted],
    (framePosition_extracted d s).ge.trans' (Nat.le_succ _),
    fun _ _ hk => wirebit_extracted_other d hk.ne⟩

theorem ShowsFrame.extracted (d : Dir) {s : State} (h : ShowsFrame s.params s.dec)
    (hb : 2 ≤ s.dec.byte) : ShowsFrame s.params (extracted d s).dec := by
  refine ⟨?_, ?_, fun i k hk => ?_⟩
  · rw [extracted_dec_buf, read_extractBit_other d (by omega), h.sync0]
  · rw [extracted_dec_buf, read_extractBit_other d (by omega), h.sync1]
  · rw [framePosition_extracted] at hk
    rw [wirebit_extracted_other d (by omega), h.zeros i k (by omega)]

/-! ## EDGE -/

/-- EDGE in a frame leaves it alone, or extracts a bit, which may complete it. -/
theorem edge_inFrame_cases (d : Dir) {s : State} (hs : inFrame s) :
    SameFrame s (edge d s) ∨
      s.dec.state = .dataSynchronized ∧ SameFrame (extracted d s) (edge d s) := by
  rcases hs with hs | hs
  · rcases edge_dataSynchronized_cases d hs with ⟨-, h⟩ | ⟨-, h⟩ <;> rw [h]
    · exact .inl (sameFrame_recordEdge d s)
    · exact .inr ⟨hs, sameFrame_completeIfFull ((extracted_dec_state d s).trans hs)⟩
  · rw [edge_dataReady d hs]
    exact .inl (.of_dec_eq rfl rfl)

/-- EDGE outside a frame enters one by the sync match only (41_decoder.md R131, R132). -/
theorem edge_enters_frame {d : Dir} {s : State} (hs : ¬ inFrame s) (ht : inFrame (edge d s)) :
    (shiftBit d s).dec.shift = s.params.sync ∧
      SameFrame (syncMatch (shiftBit d s)) (edge d s) := by
  cases hd : s.dec.state with
  | notSynchronized =>
    rcases edge_notSynchronized_cases d hd with ⟨-, h⟩ | ⟨-, -, h⟩ | ⟨-, -, h⟩ <;>
      simp [h, inFrame, hd] at ht
  | bitSynchronized =>
    rcases edge_bitSynchronized_cases d hd with ⟨-, h⟩ | ⟨-, -, h⟩ | ⟨-, hm, h⟩
    · simp [h, inFrame, hd] at ht
    · simp [h, inFrame, hd] at ht
    · exact ⟨hm, h ▸ sameFrame_recordEdge d _⟩
  | dataSynchronized => exact absurd (.inl hd) hs
  | dataReady => exact absurd (.inr hd) hs

theorem edge_keeps_receivedFrameOk (d : Dir) {s : State} (hd : decOk s)
    (h : receivedFrameOk s) : receivedFrameOk (edge d s) := by
  by_cases hs : inFrame s
  · rcases edge_inFrame_cases d hs with hsame | ⟨hdata, hsame⟩
    · exact hsame.receivedFrameOk h
    · obtain ⟨-, hbyte, -⟩ := (decControlOk_dataSynchronized hdata).mp hd.control
      have hshows := ((receivedFrameOk_iff s).mp h hs).extracted d hbyte
      rw [← (continuesFrame_extracted d hdata).params_eq] at hshows
      exact hsame.receivedFrameOk ((receivedFrameOk_iff _).mpr fun _ => hshows)
  · refine (receivedFrameOk_iff _).mpr fun ht => ?_
    obtain ⟨hm, hsame⟩ := edge_enters_frame hs ht
    exact hsame.showsFrame (showsFrame_syncMatch (s := shiftBit d s) hm hd.buf_below)

theorem edge_continuesFrame (d : Dir) {s : State} (hs : inFrame s) :
    ContinuesFrame s (edge d s) := by
  rcases edge_inFrame_cases d hs with hsame | ⟨hdata, hsame⟩
  · exact hsame.continuesFrame hs
  · have hext := continuesFrame_extracted d hdata
    exact hext.trans (hsame.continuesFrame hext.stays)

/-! ## Every operation and every cycle -/

/-- An operation other than RESET_DECODER continues the frame. -/
theorem exec_continuesFrame {i : Instr} {s t : State} (h : exec i s = .next t)
    (hi : i ≠ .resetDecoder) (hs : inFrame s) : ContinuesFrame s t := by
  obtain ⟨-, rfl⟩ := exec_next h
  cases i with
  | nop => exact .of_dec_eq hs rfl rfl
  | tick =>
    have henc : ContinuesFrame s (encTick (beginOp s)) :=
      .of_dec_eq hs (encTick_params _) (encTick_dec _)
    exact henc.trans ((sameFrame_decTick _).continuesFrame henc.stays)
  | rxSample level =>
    show ContinuesFrame s (rxSample level (beginOp s))
    rcases rxSample_cases level (beginOp s) with ⟨-, h⟩ | ⟨-, -, h⟩ | ⟨-, -, h⟩ <;> rw [h]
    · exact .of_dec_eq hs rfl rfl
    · exact .of_dec_eq hs rfl rfl
    · have hrec : ContinuesFrame s (recordLevel level (beginOp s)) := .of_dec_eq hs rfl rfl
      exact hrec.trans (edge_continuesFrame _ hrec.stays)
  | edge d =>
    have hbegin : ContinuesFrame s (beginOp s) := .of_dec_eq hs rfl rfl
    exact hbegin.trans (edge_continuesFrame d hbegin.stays)
  | resetDecoder => exact absurd rfl hi
  | startEncode len payload => exact .of_dec_eq hs rfl rfl

theorem performIf_continuesFrame {c : Bool} {i : Instr} {s t : State}
    (h : performIf c i s = .next t) (hi : i ≠ .resetDecoder) (hs : inFrame s) :
    ContinuesFrame s t := by
  cases c with
  | true => exact exec_continuesFrame h hi hs
  | false =>
    cases h
    exact .of_dec_eq hs rfl rfl

/-- RESET_DECODER leaves the frame. -/
theorem exec_resetDecoder_not_inFrame {s t : State} (h : exec .resetDecoder s = .next t) :
    ¬ inFrame t := by
  obtain ⟨-, rfl⟩ := exec_next h
  rintro (hf | hf) <;> cases hf

theorem performIf_reset_continuesFrame {c : Bool} {s t : State}
    (h : performIf c .resetDecoder s = .next t) (hs : inFrame s) (ht : inFrame t) :
    ContinuesFrame s t := by
  cases c with
  | true => exact absurd ht (exec_resetDecoder_not_inFrame h)
  | false =>
    cases h
    exact .of_dec_eq hs rfl rfl

/-- A cycle that ends in the frame it starts in has performed no RESET_DECODER, the last of its
operations, and the three before it continue the frame. -/
theorem CycleRun.continuesFrame {ports : PortsIn} {s a b c d : State}
    (h : CycleRun ports s a b c d) (hs : inFrame s) (hd : inFrame d) : ContinuesFrame s d := by
  have ha := performIf_continuesFrame h.ticked nofun hs
  have hb := ha.trans (exec_continuesFrame h.sampled nofun ha.stays)
  have hc := hb.trans (performIf_continuesFrame h.started nofun hb.stays)
  exact hc.trans (performIf_reset_continuesFrame h.reset hc.stays hd)

theorem clockCycle_continuesFrame {ports : PortsIn} {s t : State}
    (h : clockCycle ports s = .next t) (hs : inFrame s) (ht : inFrame t) : ContinuesFrame s t := by
  obtain ⟨-, ⟨-, rfl⟩ | ⟨hr, -⟩⟩ := clockCycle_next h
  · rcases ht with hf | hf <;> cases hf
  · obtain ⟨a, b, c, d, hrun, rfl⟩ := (clockCycle_next_iff hr).mp h
    have hd := hrun.continuesFrame hs ht
    exact hd.trans (.of_dec_eq hd.stays rfl rfl)

theorem step_continuesFrame {s t : State} (h : step s = .next t) (hs : inFrame s)
    (ht : inFrame t) : ContinuesFrame s t := by
  have hdrop : ContinuesFrame s s.dropInput := .of_dec_eq hs rfl rfl
  refine hdrop.trans ?_
  rcases step_next h with ⟨i, hi⟩ | ⟨ports, hc⟩
  · refine exec_continuesFrame hi ?_ hdrop.stays
    rintro rfl
    exact exec_resetDecoder_not_inFrame hi ht
  · exact clockCycle_continuesFrame hc hdrop.stays ht

/-- `receivedFrameOk` with what it needs of the decode session to be kept: the byte cursor behind the sync
field, and no byte beyond the buffer's end. -/
def DecoderShowsFrame (s : State) : Prop := decOk s ∧ receivedFrameOk s

theorem decoderShowsFrame_ofDecoder : OfDecoder DecoderShowsFrame := fun s t hp hd h =>
  ⟨decOk_ofDecoder s t hp hd h.1, (SameFrame.of_dec_eq hp hd).receivedFrameOk h.2⟩

theorem exec_keeps_decoderShowsFrame (i : Instr) (s t : State) (h : exec i s = .next t)
    (hs : DecoderShowsFrame s) : DecoderShowsFrame t :=
  exec_keeps_decoder decoderShowsFrame_ofDecoder
    (fun d _ hp ⟨hd, hf⟩ => ⟨edge_decOk d hp hd, edge_keeps_receivedFrameOk d hd hf⟩)
    (fun s _ ⟨hd, hf⟩ => ⟨decTick_decOk hd, (sameFrame_decTick s).receivedFrameOk hf⟩)
    (fun _ hp ⟨hd, _⟩ => ⟨resetDecoder_decOk hp hd, by rintro (hf | hf) <;> cases hf⟩) h hs

/-- Settles O48: every operation keeps what `DecBuf` shows, and a step that ends in the frame it starts in
continues it. -/
theorem stepKeepsTheReceivedFrame : Obligations.StepKeepsTheReceivedFrame := by
  intro s t hs hf h
  obtain ⟨-, -, hd⟩ := (blockInv_iff s).mp hs
  have ⟨_, hft⟩ : DecoderShowsFrame t :=
    step_keeps (fun s t hp _ => decoderShowsFrame_ofDecoder s t hp) exec_keeps_decoderShowsFrame
      (fun p hp => ⟨powerOn_decOk hp, powerOn_receivedFrameOk p⟩) h ⟨hd, hf⟩
  exact ⟨hft, fun hs ht => (step_continuesFrame h hs ht).extractedBitsKept hs ht⟩

end Sys2Proof.Machine
end

section
/-! Every clock cycle completes, whatever its inputs (42_events_and_ports.md R166,
70_reset_and_hazards.md R218; O36). -/

namespace Sys2Proof.Machine

/-- From a state that meets the invariants a cycle completes in one that meets them again. -/
theorem clockCycle_completes (ports : PortsIn) {s : State} (h : coreInv s) :
    ∃ t, clockCycle ports s = .next t ∧ coreInv t := by
  cases hr : ports.rst with
  | true =>
    obtain ⟨⟨hp, -⟩, -⟩ := h
    obtain ⟨hreset, -⟩ := powerOn_blockInv hp
    exact ⟨_, clockCycle_of_rst hp hr, hreset⟩
  | false =>
    obtain ⟨a, b, c, d, hrun, hd⟩ := cycleRun_of_coreInv ports h
    exact ⟨_, (clockCycle_next_iff hr).mpr ⟨a, b, c, d, hrun, rfl⟩, hd⟩

/-- Settles O36: a step over either kind of cycle is a clock cycle on the state without its input. -/
theorem everyClockCycleCompletes : Obligations.EveryClockCycleCompletes := by
  intro s ports rest hs hin
  obtain ⟨input, wired, hinput, hstep⟩ : ∃ input wired,
      s.inputs = input :: rest ∧ step s = clockCycle wired s.dropInput := by
    rcases hin with hin | hin
    · exact ⟨_, _, hin, step_cycle hin⟩
    · exact ⟨_, _, hin, step_loopCycle hin⟩
  obtain ⟨t, ht, hinv⟩ := clockCycle_completes wired (s := s.dropInput) hs
  refine ⟨t, hstep.trans ht, hinv, ?_⟩
  rw [clockCycle_inputs ht, State.dropInput_inputs, hinput, List.tail_cons]

end Sys2Proof.Machine
end
